-- ==== Sys2Proof/Word.lean ====
section
/-! DEFINITION. The two word types of the block: a register byte and a command word (spec 00 R7, R8). -/

namespace Sys2Proof

/-- A peripheral register, a data byte, a status or a result: 8 bits, unsigned (00 R8). -/
abbrev Byte := BitVec 8

/-- A command word, `CMD_WIDTH` = 32 bits (00 R7; 30 R58). -/
abbrev Word := BitVec 32

end Sys2Proof
end

