-- ==== Sys2Proof/Syntax.lean ====
section
/-! DEFINITION. The sixteen commands of spec 30 R61 with their operands (30 R60). -/

namespace Sys2Proof

/-- One constructor per row of the opcode table. Operands that the spec treats as unsigned integers are `Nat`, with the
range of 30 R60 checked by `Instr.wellFormed`; a data byte is a `Byte`; a flag is a `Bool`. -/
inductive Instr where
  /-- SPI.VALIDATE (40 R76) -/
  | spiValidate (divider : Nat) (doubleSpeed : Bool)
  /-- SPI.LOOKUP (40 R77) -/
  | spiLookup (cls lmode : Nat)
  /-- SPI.CONFIGURE (41 R82) -/
  | spiConfigure (divider mode : Nat) (master doubleSpeed lsbFirst interruptEnable present : Bool)
  /-- SPI.SELECT (42 R87) -/
  | spiSelect (line : Nat)
  /-- SPI.DESELECT (42 R88) -/
  | spiDeselect (line : Nat)
  /-- SPI.TRANSFER (42 R90) -/
  | spiTransfer (byte : Byte)
  /-- SPI.SEND (42 R91) -/
  | spiSend (byte : Byte)
  /-- I2C.INIT (43 R101) -/
  | i2cInit (targetHz : Nat)
  /-- I2C.OWNADDR (43 R102) -/
  | i2cOwnAddr (addr7 : Nat)
  /-- I2C.START (43 R104) -/
  | i2cStart
  /-- I2C.ADDRESS (43 R106) -/
  | i2cAddress (addr dir : Nat)
  /-- I2C.SEND (43 R107) -/
  | i2cSend (byte : Byte)
  /-- I2C.READACK (43 R108) -/
  | i2cReadAck
  /-- I2C.READNACK (43 R109) -/
  | i2cReadNack
  /-- I2C.STOP (43 R110) -/
  | i2cStop
  /-- I2C.STATUS (44 R115) -/
  | i2cStatus
  deriving DecidableEq, Repr

end Sys2Proof
end

