-- ==== Sys2Proof/WellFormed.lean ====
section
/-! DEFINITION. Which operand values a command word can carry (spec 30 R60). -/

namespace Sys2Proof

/-- Every operand lies in the range its field can encode (30 R60). Values the error rules reject (a divider of 3, a mode
of 9, an address of 200) are well formed: they are encodable and complete with an error code (30 R64). -/
def Instr.wellFormed : Instr → Bool
  | .spiValidate divider _ => decide (divider < 256)
  | .spiLookup cls lmode => decide (cls < 4) && decide (lmode < 4)
  | .spiConfigure divider mode _ _ _ _ _ => decide (divider < 256) && decide (mode < 256)
  | .spiSelect line => decide (line < 256)
  | .spiDeselect line => decide (line < 256)
  | .spiTransfer _ => true
  | .spiSend _ => true
  | .i2cInit targetHz => decide (targetHz < 16777216)
  | .i2cOwnAddr addr7 => decide (addr7 < 128)
  | .i2cStart => true
  | .i2cAddress addr dir => decide (addr < 256) && decide (dir < 256)
  | .i2cSend _ => true
  | .i2cReadAck => true
  | .i2cReadNack => true
  | .i2cStop => true
  | .i2cStatus => true

end Sys2Proof
end

