-- ==== Sys2Proof/Decode.lean ====
section
/-! DEFINITION. Command words to commands and back (spec 30 R58 to R64), and the serialised form of a word (20 R39). -/

namespace Sys2Proof

/-- The eight formats of 30 R59. -/
inductive Format where
  | n | a | a7 | ab | l | v | cfg | h
  deriving DecidableEq, Repr

/-- The fixed-bit mask: a 1 for the opcode bits and for every constrained bit (30 R59). -/
def Format.mask : Format → Word
  | .n => 0xFFFFFFFF
  | .a => 0xFFFF00FF
  | .a7 => 0xFFFF80FF
  | .ab => 0xFF0000FF
  | .l => 0xFFFCFCFF
  | .v => 0xFDFF00FF
  | .cfg => 0xE00000FF
  | .h => 0x000000FF

/-- The opcode of a command (30 R61). -/
def Instr.opcode : Instr → Byte
  | .spiValidate _ _ => 0x01
  | .spiLookup _ _ => 0x02
  | .spiConfigure _ _ _ _ _ _ _ => 0x03
  | .spiSelect _ => 0x04
  | .spiDeselect _ => 0x05
  | .spiTransfer _ => 0x06
  | .spiSend _ => 0x07
  | .i2cInit _ => 0x10
  | .i2cOwnAddr _ => 0x11
  | .i2cStart => 0x12
  | .i2cAddress _ _ => 0x13
  | .i2cSend _ => 0x14
  | .i2cReadAck => 0x15
  | .i2cReadNack => 0x16
  | .i2cStop => 0x17
  | .i2cStatus => 0x18

/-- The format of a command (30 R61). -/
def Instr.format : Instr → Format
  | .spiValidate _ _ => .v
  | .spiLookup _ _ => .l
  | .spiConfigure _ _ _ _ _ _ _ => .cfg
  | .spiSelect _ => .a
  | .spiDeselect _ => .a
  | .spiTransfer _ => .a
  | .spiSend _ => .a
  | .i2cInit _ => .h
  | .i2cOwnAddr _ => .a7
  | .i2cStart => .n
  | .i2cAddress _ _ => .ab
  | .i2cSend _ => .a
  | .i2cReadAck => .n
  | .i2cReadNack => .n
  | .i2cStop => .n
  | .i2cStatus => .n

/-- Why no command is read. The first two are illegal words (30 R63); the third is a byte string too short to hold a
command word (20 R39), which the block itself never sees. -/
inductive DecodeError where
  | unassignedOpcode
  | constrainedBits
  | truncated
  deriving DecidableEq, Repr

/-- What a word stands for: a command, or no command by a named reason. -/
inductive Decoded where
  | command (i : Instr)
  | illegal (why : DecodeError)
  deriving DecidableEq, Repr

/-- Field `OP`, bits 7:0 (30 R58). -/
def opField (w : Word) : Byte := w.extractLsb' 0 8

/-- Field `A`, bits 15:8 (30 R58). -/
def aField (w : Word) : Byte := w.extractLsb' 8 8

/-- Field `B`, bits 23:16 (30 R58). -/
def bField (w : Word) : Byte := w.extractLsb' 16 8

/-- Flag `F[k]`, bit 24 + k (30 R58). -/
def flagField (w : Word) (k : Nat) : Bool := w.getLsbD (24 + k)

/-- Field `HZ`, bits 31:8 (30 R58). -/
def hzField (w : Word) : BitVec 24 := w.extractLsb' 8 24

/-- The command `i`, if every constrained bit of its format is 0 in `w`: `(w & mask) = OP` (30 R61, R62). -/
def checkedRow (w : Word) (i : Instr) : Decoded :=
  if w &&& i.format.mask = i.opcode.setWidth 32 then .command i else .illegal .constrainedBits

/-- The decode of 30 R62: total; it selects the row of the opcode, then checks the row's constrained bits. -/
def decode (w : Word) : Decoded :=
  match (opField w).toNat with
  | 0x01 => checkedRow w (.spiValidate (aField w).toNat (flagField w 1))
  | 0x02 => checkedRow w (.spiLookup ((aField w).extractLsb' 0 2).toNat ((bField w).extractLsb' 0 2).toNat)
  | 0x03 => checkedRow w (.spiConfigure (aField w).toNat (bField w).toNat (flagField w 0) (flagField w 1)
      (flagField w 2) (flagField w 3) (flagField w 4))
  | 0x04 => checkedRow w (.spiSelect (aField w).toNat)
  | 0x05 => checkedRow w (.spiDeselect (aField w).toNat)
  | 0x06 => checkedRow w (.spiTransfer (aField w))
  | 0x07 => checkedRow w (.spiSend (aField w))
  | 0x10 => checkedRow w (.i2cInit (hzField w).toNat)
  | 0x11 => checkedRow w (.i2cOwnAddr ((aField w).extractLsb' 0 7).toNat)
  | 0x12 => checkedRow w .i2cStart
  | 0x13 => checkedRow w (.i2cAddress (aField w).toNat (bField w).toNat)
  | 0x14 => checkedRow w (.i2cSend (aField w))
  | 0x15 => checkedRow w .i2cReadAck
  | 0x16 => checkedRow w .i2cReadNack
  | 0x17 => checkedRow w .i2cStop
  | 0x18 => checkedRow w .i2cStatus
  | _ => .illegal .unassignedOpcode

/-- The word with fields `RSV` = 0, `F`, `B`, `A`, `OP`, the flags from `F[4]` down to `F[0]` (30 R58). -/
def commandWord (f4 f3 f2 f1 f0 : Bool) (b a op : Byte) : Word :=
  0#3 ++ BitVec.ofBool f4 ++ BitVec.ofBool f3 ++ BitVec.ofBool f2 ++ BitVec.ofBool f1 ++ BitVec.ofBool f0 ++ b ++ a ++ op

/-- The word with operands `A` and `B` only. -/
def abWord (b a op : Byte) : Word := commandWord false false false false false b a op

/-- The command word of a well-formed command (30 R58 to R61). -/
def encode : Instr → Word
  | .spiValidate divider ds => commandWord false false false ds false 0 (BitVec.ofNat 8 divider) 0x01
  | .spiLookup cls lmode => abWord (BitVec.ofNat 8 lmode) (BitVec.ofNat 8 cls) 0x02
  | .spiConfigure divider mode ma ds lsb ie pr =>
      commandWord pr ie lsb ds ma (BitVec.ofNat 8 mode) (BitVec.ofNat 8 divider) 0x03
  | .spiSelect line => abWord 0 (BitVec.ofNat 8 line) 0x04
  | .spiDeselect line => abWord 0 (BitVec.ofNat 8 line) 0x05
  | .spiTransfer byte => abWord 0 byte 0x06
  | .spiSend byte => abWord 0 byte 0x07
  | .i2cInit targetHz => BitVec.ofNat 24 targetHz ++ (0x10 : Byte)
  | .i2cOwnAddr addr7 => abWord 0 (BitVec.ofNat 8 addr7) 0x11
  | .i2cStart => abWord 0 0 0x12
  | .i2cAddress addr dir => abWord (BitVec.ofNat 8 dir) (BitVec.ofNat 8 addr) 0x13
  | .i2cSend byte => abWord 0 byte 0x14
  | .i2cReadAck => abWord 0 0 0x15
  | .i2cReadNack => abWord 0 0 0x16
  | .i2cStop => abWord 0 0 0x17
  | .i2cStatus => abWord 0 0 0x18

/-- A command word from its serialised bytes, least significant byte first (20 R39). -/
def wordOfBytes (b0 b1 b2 b3 : Byte) : Word := b3 ++ b2 ++ b1 ++ b0

/-- The serialised bytes of a command word, least significant byte first (20 R39). -/
def bytesOfWord (w : Word) : List Byte :=
  [w.extractLsb' 0 8, w.extractLsb' 8 8, w.extractLsb' 16 8, w.extractLsb' 24 8]

/-- The command at the head of a byte string, with the bytes after it: total on any bytes (20 R39; 30 R62). -/
def decodeBytes : List Byte → Decoded × List Byte
  | b0 :: b1 :: b2 :: b3 :: rest => (decode (wordOfBytes b0 b1 b2 b3), rest)
  | short => (.illegal .truncated, short)

/-- The command a decode gives, if it gives one. -/
def Decoded.toOption : Decoded → Option Instr
  | .command i => some i
  | .illegal _ => none

/-- The command the decoder reads from the opcode-table word `w` of `nbits` bits, every bit above `nbits` 0, laid out
as serialised bytes (20 R39) and given to the decoder. -/
def decodeTableWord (nbits w : Nat) : Option Instr :=
  (decodeBytes (bytesOfWord (BitVec.ofNat 32 (w % 2 ^ nbits)))).1.toOption

end Sys2Proof
end

