-- ==== Sys2Proof/Config.lean ====
section
/-! DEFINITION. What an implementation fixes (the OPEN parameters of spec 00 R7) and what the environment chooses
freely (which agent moves next and what it delivers, 20 R49 to R54). -/

namespace Sys2Proof

/-- One value for every byte cell of the peripheral register file: the parameter `PERIPH_RESET` (00 R7; 10 R34). -/
structure PeriphReset where
  spcr : Byte
  spsr : Byte
  spdrTx : Byte
  spdrRx : Byte
  twcr : Byte
  twsr : Byte
  twbr : Byte
  twar : Byte
  twdr : Byte
  deriving DecidableEq, Repr

/-- The OPEN parameters of 00 R7. The machine holds them in its state (no step changes them), so that a statement over
all states is a statement over all parameter values. -/
structure Params where
  /-- `CORE_CLOCK_HZ`, a natural number > 0. -/
  coreClockHz : Nat
  /-- `CS_LINES`, the valid chip-select line identifiers, strictly rising. -/
  csLines : List Nat
  /-- `PERIPH_RESET`. -/
  periphReset : PeriphReset
  deriving DecidableEq, Repr

/-- One choice of the environment: which agent takes the next step, with what it draws (20 R49 to R54; 70 R133).
A turn given to an agent that has no enabled step passes without effect (DESIGN CHOICE, safe: log 1). -/
inductive Turn where
  /-- The host writes this word into `CMD` (20 R52). -/
  | host (command : Word)
  /-- The block takes its step (20 R54). -/
  | block
  /-- The SPI peripheral completes and delivers a byte (20 R49). -/
  | spiCompletes (received : Byte)
  /-- The TWI peripheral completes a bus action with a status code and a byte (20 R50). -/
  | twiCompletes (status : BitVec 5) (received : Byte)
  /-- The TWI peripheral has executed the stop condition (20 R51). -/
  | stopSettles (status : BitVec 5)
  /-- The platform raises reset (70 R133). -/
  | reset
  deriving DecidableEq, Repr, Inhabited

/-- The environment's choices, one for each index: nothing is known of them, so every order and every draw is a run of
the model and no fairness is assumed (20 R54; 60 R123; log 1). -/
opaque Config.schedule : Nat → Turn

/-- A byte the spec leaves to be 'any value' (93 K1.18, K1.19), one for each index: nothing is known of it (log 7, log 8). -/
opaque Config.freeByte : Nat → Byte

end Sys2Proof
end

