-- ==== Sys2Proof/Machine/ResetValues.lean ====
section
/-! DEFINITION. The values of the OPEN parameters in the model's reset state, and what a peripheral register holds right
after reset under any `PERIPH_RESET` (spec 10 R33, R34). -/

namespace Sys2Proof.Machine

/-- The default of `PERIPH_RESET` (10 R34, general knowledge of the ATmega328P by the spec's decision D23; log 5).
`SPDR_TX` and `SPDR_RX` have 'no value' there: 0x00 is the model's value, DESIGN CHOICE, unsafe (log 6). -/
def defaultPeriphReset : PeriphReset where
  spcr := 0x00
  spsr := 0x00
  spdrTx := 0x00
  spdrRx := 0x00
  twcr := 0x00
  twsr := 0xF8
  twbr := 0x00
  twar := 0xFE
  twdr := 0xFF

/-- The parameters of the reset state. `CS_LINES` and `PERIPH_RESET` have the spec's defaults (00 R7; log 4, log 5);
`CORE_CLOCK_HZ` has none: 16,000,000 is that of the spec's common start state (95), DESIGN CHOICE, unsafe (log 3). -/
def defaultParams : Params where
  coreClockHz := 16000000
  csLines := [0]
  periphReset := defaultPeriphReset

/-- `SPSR` after reset: `SPIF` = `WCOL` = 0 whatever `PERIPH_RESET` (10 R34), the reserved bits 0 (10 R24). -/
def resetSpsr (p : PeriphReset) : Byte := p.spsr &&& 0x01

/-- `TWCR` after reset: `TWINT` = `TWSTO` = 0 whatever `PERIPH_RESET` (10 R34), the reserved bit 0 (10 R26). -/
def resetTwcr (p : PeriphReset) : Byte := p.twcr &&& 0x6D

/-- `TWSR` after reset: the reserved bit 0 (10 R27). -/
def resetTwsr (p : PeriphReset) : Byte := p.twsr &&& 0xFB

end Sys2Proof.Machine
end

