-- ==== Sys2Proof/Machine/State.lean ====
section
/-! DEFINITION. The state of the machine: the block-internal registers (spec 10 section 1), the peripheral register file
with its hidden state (10 section 2), the model's parameters and the environment's pending choices; and its reset. -/

namespace Sys2Proof.Machine

/-- The direction of an I2C transaction: 0 write, 1 read (43 R105). -/
inductive Direction where
  | write
  | read
  deriving DecidableEq, Repr

/-- The sequencer's `BusState` (10 R16). -/
inductive BusState where
  | idle
  | startSent
  | addressed (dir : Direction)
  | dataPhase
  | stopPending
  deriving DecidableEq, Repr

/-- The SPI command that holds for the SPI completion flag (10 R15). -/
inductive SpiWait where
  | transfer
  | send
  deriving DecidableEq, Repr

/-- The I2C command that holds for the TWI completion flag (10 R15). -/
inductive TwiWait where
  | start
  | address (dir : Direction)
  | sendByte
  | readAck
  | readNack
  deriving DecidableEq, Repr

/-- `PHASE` (10 R15). -/
inductive Phase where
  | ready
  | waitSpi (k : SpiWait)
  | waitTwi (k : TwiWait)
  | waitSettle
  | faulted
  deriving DecidableEq, Repr

/-- The causes the `FAULT` register can hold; 'None' is `Option.none` (10 R17; 60 R119). -/
inductive FaultCause where
  | illegalCommand
  | sequenceViolation
  deriving DecidableEq, Repr

/-- The named errors a command can end in (60 R117). -/
inductive ErrorCode where
  | invalidMode
  | speedMismatch
  | nullConfig
  | badSlaveAddress
  | badDirectionBit
  | badBitRate
  | badCsLine
  deriving DecidableEq, Repr

/-- The level the block drives on a chip-select line (10 R20). -/
inductive CsLevel where
  | undriven
  | low
  | high
  deriving DecidableEq, Repr

/-- The one kind of event in `EVENTS` (10 R21). -/
inductive Event where
  | spiMasterPinDir
  deriving DecidableEq, Repr

/-- `TWI_PENDING` (10 R31). -/
inductive TwiPending where
  | none
  | startAction
  | byteAction
  deriving DecidableEq, Repr

/-- The names of the eight peripheral registers (10 R22). -/
inductive Reg where
  | spcr | spsr | spdr | twcr | twsr | twbr | twar | twdr
  deriving DecidableEq, Repr

/-- The state: plain data. -/
structure State where
  /-- The OPEN parameters of 00 R7: fixed for the machine, written by no step. -/
  params : Params
  /-- `CMD`: the word the host presented and the block has not completed, or no command (10 R14, R33; log 9). -/
  cmd : Option Word
  /-- `PHASE` (10 R15). -/
  phase : Phase
  /-- `BUS` (10 R16). -/
  bus : BusState
  /-- `FAULT` (10 R17). -/
  fault : Option FaultCause
  /-- `FAULT_CMD` (10 R17). -/
  faultCmd : Word
  /-- `RESULT_CODE` (10 R18). -/
  resultCode : Byte
  /-- `RESULT_VALUE` (10 R18). -/
  resultValue : Byte
  /-- `CI`: completed commands; it does not wrap (10 R19). -/
  ci : Nat
  /-- `CS[l]`, one entry for each `l` of `CS_LINES` in its order (10 R20). -/
  cs : List (Nat × CsLevel)
  /-- `EVENTS`, oldest first (10 R21). -/
  events : List Event
  /-- `SPCR` (10 R23). -/
  spcr : Byte
  /-- `SPSR` (10 R24). -/
  spsr : Byte
  /-- `SPDR_TX` (10 R25). -/
  spdrTx : Byte
  /-- `SPDR_RX` (10 R25). -/
  spdrRx : Byte
  /-- Whether an SPI completion has written `SPDR_RX` since reset: until then it 'holds no value' (10 R25; log 7). -/
  spdrRxFilled : Bool
  /-- `TWCR` (10 R26). -/
  twcr : Byte
  /-- `TWSR` (10 R27). -/
  twsr : Byte
  /-- `TWBR` (10 R28). -/
  twbr : Byte
  /-- `TWAR` (10 R29). -/
  twar : Byte
  /-- `TWDR` (10 R30). -/
  twdr : Byte
  /-- `SPI_PENDING` (10 R31). -/
  spiPending : Bool
  /-- `TWI_PENDING` (10 R31). -/
  twiPending : TwiPending
  /-- The model's own: choices of the environment already made, the next one first (log 1). -/
  turns : List Turn
  /-- The model's own: how many values have been taken from the opaque constants of Config (log 1, log 7, log 8). -/
  draws : Nat
  deriving DecidableEq, Repr

/-- Why the model stops without a next state: never. The block's two faults are states it goes on from (only reset
clears them, and the peripherals keep their steps: 60 R120, R121), so nothing raises a `Fault` and the type has no
constructor (safe: log 13). -/
inductive Fault where
  deriving DecidableEq, Repr

/-- Why an instruction has no meaning in the model. -/
inductive Refusal where
  /-- Raised by `exec` for an instruction that is not modelled yet; no arm raises it now. Safe: the machine stops. -/
  | notModelled (mnemonic : String)
  deriving DecidableEq, Repr

/-- The state right after reset under the given parameters (10 R33, R34; 70 R133), with the environment's pending
choices left as they are given: reset does not decide what the environment does next. -/
def State.afterReset (p : Params) (turns : List Turn) (draws : Nat) : State where
  params := p
  cmd := none
  phase := .ready
  bus := .idle
  fault := none
  faultCmd := 0
  resultCode := 0
  resultValue := 0
  ci := 0
  cs := p.csLines.map fun l => (l, .undriven)
  events := []
  spcr := p.periphReset.spcr
  spsr := resetSpsr p.periphReset
  spdrTx := p.periphReset.spdrTx
  spdrRx := p.periphReset.spdrRx
  spdrRxFilled := false
  twcr := resetTwcr p.periphReset
  twsr := resetTwsr p.periphReset
  twbr := p.periphReset.twbr
  twar := p.periphReset.twar
  twdr := p.periphReset.twdr
  spiPending := false
  twiPending := .none
  turns := turns
  draws := draws

/-- The machine right after reset, with the parameters of `defaultParams` and no choice of the environment made yet
(10 R33, R34; log 2). -/
def State.reset : State := State.afterReset defaultParams [] 0

end Sys2Proof.Machine
end

