-- ==== Sys2Proof/Machine/Flags.lean ====
section
/-! DEFINITION. The fields of the peripheral registers by name (spec 10 R23 to R30), the four status flags and how they
change (10 R32), and the two interrupt requests (60 R126). -/

namespace Sys2Proof.Machine

/-- A register byte with one bit set to a given value. -/
def putBit (v : Byte) (n : Nat) (b : Bool) : Byte := if b then v ||| (1#8 <<< n) else v &&& ~~~(1#8 <<< n)

/-- `SPCR.SPIE`, bit 7 (10 R23). -/
def State.spie (s : State) : Bool := s.spcr[7]
/-- `SPCR.SPE`, bit 6 (10 R23). -/
def State.spe (s : State) : Bool := s.spcr[6]
/-- `SPCR.DORD`, bit 5 (10 R23). -/
def State.dord (s : State) : Bool := s.spcr[5]
/-- `SPCR.MSTR`, bit 4 (10 R23). -/
def State.mstr (s : State) : Bool := s.spcr[4]
/-- `SPCR.CPOL`, bit 3 (10 R23). -/
def State.cpol (s : State) : Bool := s.spcr[3]
/-- `SPCR.CPHA`, bit 2 (10 R23). -/
def State.cpha (s : State) : Bool := s.spcr[2]
/-- `SPCR.SPR1:SPR0`, bits 1:0 (10 R23). -/
def State.spr (s : State) : BitVec 2 := s.spcr.extractLsb' 0 2

/-- `SPSR.SPIF`, bit 7 (10 R24). -/
def State.spif (s : State) : Bool := s.spsr[7]
/-- `SPSR.WCOL`, bit 6 (10 R24). -/
def State.wcol (s : State) : Bool := s.spsr[6]
/-- `SPSR.SPI2X`, bit 0 (10 R24). -/
def State.spi2x (s : State) : Bool := s.spsr[0]

/-- `TWCR.TWINT`, bit 7 (10 R26). -/
def State.twint (s : State) : Bool := s.twcr[7]
/-- `TWCR.TWEA`, bit 6 (10 R26). -/
def State.twea (s : State) : Bool := s.twcr[6]
/-- `TWCR.TWSTA`, bit 5 (10 R26). -/
def State.twsta (s : State) : Bool := s.twcr[5]
/-- `TWCR.TWSTO`, bit 4: a stop condition is in progress (10 R26, R31). -/
def State.twsto (s : State) : Bool := s.twcr[4]
/-- `TWCR.TWWC`, bit 3 (10 R26). -/
def State.twwc (s : State) : Bool := s.twcr[3]
/-- `TWCR.TWEN`, bit 2 (10 R26). -/
def State.twen (s : State) : Bool := s.twcr[2]
/-- `TWCR.TWIE`, bit 0 (10 R26). -/
def State.twie (s : State) : Bool := s.twcr[0]

/-- `TWSR.TWS`, bits 7:3 (10 R27). -/
def State.tws (s : State) : BitVec 5 := s.twsr.extractLsb' 3 5
/-- `TWSR.TWPS`, bits 1:0 (10 R27). -/
def State.twps (s : State) : BitVec 2 := s.twsr.extractLsb' 0 2

/-- `TWAR.TWA`, bits 7:1 (10 R29). -/
def State.twa (s : State) : BitVec 7 := s.twar.extractLsb' 1 7
/-- `TWAR.TWGCE`, bit 0 (10 R29). -/
def State.twgce (s : State) : Bool := s.twar[0]

/-- `SPSR` when a transfer completes: `SPIF` set (10 R32; 20 R49). -/
def spsrCompleted (v : Byte) : Byte := putBit v 7 true

/-- `SPSR` when `SPDR` is read: `SPIF` and `WCOL` cleared (10 R32; 20 R41). -/
def spsrDataRead (v : Byte) : Byte := putBit (putBit v 7 false) 6 false

/-- `SPSR` when `SPDR` is written during a transfer: `WCOL` set (10 R32; 20 R45). -/
def spsrCollided (v : Byte) : Byte := putBit v 6 true

/-- `SPSR` when `v` is written to it: only `SPI2X` is writable (20 R44). -/
def spsrWritten (old v : Byte) : Byte := putBit old 0 (v[0])

/-- `TWCR` when `v` is written to it (20 R46): `TWEA`, `TWSTA`, `TWSTO`, `TWEN` and `TWIE` are taken from `v`, `TWWC` and
the reserved bit keep their values, and `TWINT` is cleared by a 1 and left by a 0. -/
def twcrWritten (old v : Byte) : Byte :=
  (v &&& 0x75) ||| (old &&& if v[7] then 0x0A else 0x8A)

/-- `TWCR` when a bus action completes: `TWINT` set (10 R32; 20 R50). -/
def twcrCompleted (v : Byte) : Byte := putBit v 7 true

/-- `TWCR` when the stop condition has been executed: `TWSTO` cleared, `TWINT` as it was (20 R51). -/
def twcrStopSettled (v : Byte) : Byte := putBit v 4 false

/-- `TWCR` when `TWDR` is written: `TWWC` set on a collision (`TWINT` = 0), else cleared (10 R32; 20 R48). -/
def twcrDataWritten (v : Byte) : Byte := putBit v 3 (!v[7])

/-- `TWSR` when `v` is written to it: only `TWPS` is writable (20 R47). -/
def twsrWritten (old v : Byte) : Byte := (old &&& 0xFC) ||| (v &&& 0x03)

/-- `TWSR` with a new status code; bit 2 and `TWPS` as they were (20 R50, R51). -/
def twsrStatus (old : Byte) (status : BitVec 5) : Byte := status ++ old.extractLsb' 0 3

/-- The SPI interrupt request to the host CPU, `SPCR.SPIE & SPSR.SPIF` (60 R126). -/
def State.spiRequest (s : State) : Bool := s.spie && s.spif

/-- The TWI interrupt request to the host CPU, `TWCR.TWIE & TWCR.TWINT` (60 R126). -/
def State.twiRequest (s : State) : Bool := s.twie && s.twint

end Sys2Proof.Machine
end

