-- ==== Sys2Proof/Machine/Operands.lean ====
section
/-! DEFINITION. What a command computes from its operands before it touches a register (spec 30 R60): the direction and
the address byte of I2C (43 R105), the own-address byte (43 R102), a flag as a byte (00 R9). -/

namespace Sys2Proof.Machine

/-- A boolean used as a byte: 1 for true, 0 for false (00 R9). -/
def boolByte (b : Bool) : Byte := if b then 1 else 0

/-- The direction an operand `dir` names: 0 is write, 1 is read, anything else is none (43 R105, R106). -/
def directionOf : Nat → Option Direction
  | 0 => some .write
  | 1 => some .read
  | _ => none

/-- The direction bit of the address byte (43 R105). -/
def Direction.bit : Direction → Byte
  | .write => 0
  | .read => 1

/-- A slave address the sequencer accepts: in [1,127] (43 R106). -/
def validSlaveAddress (addr : Nat) : Bool := decide (1 ≤ addr) && decide (addr ≤ 127)

/-- The address byte SLA+R/W, `(addr << 1) | dir` at 8 bits (43 R105). -/
def slaByte (addr : Nat) (dir : Direction) : Byte := (BitVec.ofNat 8 addr <<< 1) ||| dir.bit

/-- The byte stored in `TWAR` for an own address: `(addr7 << 1) | 0`, general call off (43 R102). -/
def ownAddrByte (addr7 : Nat) : Byte := BitVec.ofNat 8 addr7 <<< 1

end Sys2Proof.Machine
end

