-- ==== Sys2Proof/Machine/Ops.lean ====
section
/-! DEFINITION. The shared operations: register reads and writes with their side effects (spec 20 R41 to R48), chip
select and events (10 R20, R21), the end of a command in success or error (60 R117, R118), fault entry (60 R120), and the
stop-settling prologue of the I2C commands (43 R97). -/

namespace Sys2Proof.Machine

/-- Take a byte the spec leaves to be any value (93 K1.18, K1.19). -/
def State.freeByte (s : State) : Byte := Config.freeByte s.draws

/-- The state once that byte is taken, so that the next one is another. -/
def State.freeByteTaken (s : State) : State := { s with draws := s.draws + 1 }

/-- What a peripheral register shows, without any side effect; `SPDR` shows `SPDR_RX` (10 R22 to R30). -/
def State.reg (s : State) : Reg → Byte
  | .spcr => s.spcr
  | .spsr => s.spsr
  | .spdr => s.spdrRx
  | .twcr => s.twcr
  | .twsr => s.twsr
  | .twbr => s.twbr
  | .twar => s.twar
  | .twdr => s.twdr

/-- The side effect of a read of `SPDR`: `SPIF` and `WCOL` are cleared (20 R41). -/
def State.spdrReadEffect (s : State) : State := { s with spsr := spsrDataRead s.spsr }

/-- A read of `SPDR`: `SPDR_RX`, or any value while it holds none (20 R41; 93 K1.18; log 7). -/
def readSpdr (s : State) : Byte × State :=
  if s.spdrRxFilled then (s.spdrRx, s.spdrReadEffect) else (s.freeByte, s.freeByteTaken.spdrReadEffect)

/-- `MemRead(R, 1)`: the byte read and the state after the read (20 R41, R42). -/
def memRead (r : Reg) (s : State) : Byte × State :=
  match r with
  | .spdr => readSpdr s
  | .spcr => (s.spcr, s)
  | .spsr => (s.spsr, s)
  | .twcr => (s.twcr, s)
  | .twsr => (s.twsr, s)
  | .twbr => (s.twbr, s)
  | .twar => (s.twar, s)
  | .twdr => (s.twdr, s)

/-- A write of `SPDR` (20 R45): during a transfer it collides; with `SPE` = 1 it starts a transfer; else nothing starts. -/
def writeSpdr (v : Byte) (s : State) : State :=
  if s.spiPending then { s with spdrTx := v, spsr := spsrCollided s.spsr }
  else if s.spe then { s with spdrTx := v, spiPending := true }
  else { s with spdrTx := v }

/-- The bus action a write of `v` to `TWCR` leaves pending (20 R46): a write with bit 7 = 1 and `TWEN` = 1 triggers a
start (`TWSTA`) or a byte action, unless it asks for a stop (`TWSTO`), after which no completion follows. -/
def twiTriggered (old : TwiPending) (v : Byte) : TwiPending :=
  if v[7] && v[2] then
    if v[4] then old
    else if v[5] then .startAction
    else .byteAction
  else old

/-- A write of `TWCR` (20 R46). -/
def writeTwcr (v : Byte) (s : State) : State :=
  { s with twcr := twcrWritten s.twcr v, twiPending := twiTriggered s.twiPending v }

/-- A write of `TWDR` (20 R48): stored while `TWINT` = 1; a collision leaves any value in `TWDR` (93 K1.19; log 8). -/
def writeTwdr (v : Byte) (s : State) : State :=
  if s.twint then { s with twdr := v, twcr := twcrDataWritten s.twcr }
  else { s.freeByteTaken with twdr := s.freeByte, twcr := twcrDataWritten s.twcr }

/-- `MemWrite(R, 1, v)`: the state after the write (20 R43 to R48). -/
def memWrite (r : Reg) (v : Byte) (s : State) : State :=
  match r with
  | .spcr => { s with spcr := v }
  | .spsr => { s with spsr := spsrWritten s.spsr v }
  | .spdr => writeSpdr v s
  | .twcr => writeTwcr v s
  | .twsr => { s with twsr := twsrWritten s.twsr v }
  | .twbr => { s with twbr := v }
  | .twar => { s with twar := v }
  | .twdr => writeTwdr v s

/-- The level of chip-select line `l`, for a line of `CS_LINES` (10 R20). -/
def State.csLevel (s : State) (l : Nat) : Option CsLevel := s.cs.lookup l

/-- Whether `l` is a valid chip-select line (00 R7). -/
def State.hasLine (s : State) (l : Nat) : Bool := s.params.csLines.contains l

/-- Every entry of line `l` set to `level`; no other entry, and no line, changes. -/
def csDriven (cs : List (Nat × CsLevel)) (l : Nat) (level : CsLevel) : List (Nat × CsLevel) :=
  cs.map fun entry => if entry.1 = l then (l, level) else entry

/-- `CS[l] <- level` (42 R87, R88). -/
def driveCs (l : Nat) (level : CsLevel) (s : State) : State := { s with cs := csDriven s.cs l level }

/-- `emit` an event (10 R21). -/
def emitEvent (e : Event) (s : State) : State := { s with events := s.events ++ [e] }

/-- `PHASE <- p`. -/
def enterPhase (p : Phase) (s : State) : State := { s with phase := p }

/-- `BUS <- b`. -/
def setBus (b : BusState) (s : State) : State := { s with bus := b }

/-- The numeric code of an error (60 R117). -/
def ErrorCode.code : ErrorCode → Byte
  | .invalidMode => 0x01
  | .speedMismatch => 0x02
  | .nullConfig => 0x03
  | .badSlaveAddress => 0x04
  | .badDirectionBit => 0x05
  | .badBitRate => 0x06
  | .badCsLine => 0x07

/-- The numeric code of a fault cause (60 R119). -/
def FaultCause.code : FaultCause → Byte
  | .illegalCommand => 0x01
  | .sequenceViolation => 0x02

/-- Complete the command: results, `CI`, `PHASE <- Ready`, and no command left in `CMD` (10 R18, R19; 60 R118; log 9). -/
def completeCommand (code value : Byte) (s : State) : State :=
  { s with cmd := none, phase := .ready, resultCode := code, resultValue := value, ci := s.ci + 1 }

/-- `return Ok(v)` (00 R11). -/
def returnOk (v : Byte) (s : State) : State := completeCommand 0x00 v s

/-- `return Error(E)` (00 R11; 60 R118). -/
def returnError (e : ErrorCode) (s : State) : State := completeCommand e.code 0x00 s

/-- `raise Fault(C)`: fault entry, one step, for the command word in `CMD` (60 R120). There is no return from it but
reset (60 R121, R124). -/
def raiseFault (c : FaultCause) (s : State) : State :=
  { s with phase := .faulted, fault := some c, faultCmd := s.cmd.getD 0 }

/-- The sequence check of an I2C command and then its body (43 R96). -/
def checkSequence (valid : BusState → Bool) (body : State → State) (s : State) : State :=
  if valid s.bus then body s else raiseFault .sequenceViolation s

/-- The prologue of a settling I2C command and then its body (43 R97). In `StopPending` the block enters `WaitSettle`;
from there, in the step that observes `TWSTO` = 0, `BUS <- Idle` and the sequence check and the body follow (log 11). -/
def prologue (valid : BusState → Bool) (body : State → State) (s : State) : State :=
  if s.bus = .stopPending then
    if s.phase = .waitSettle ∧ s.twsto = false then checkSequence valid body (setBus .idle s)
    else enterPhase .waitSettle s
  else checkSequence valid body s

end Sys2Proof.Machine
end

