-- ==== Sys2Proof/Machine/Agents.lean ====
section
/-! DEFINITION. The steps of the agents other than the block: the host (spec 20 R52), the SPI peripheral (20 R49), the
TWI peripheral (20 R50, R51) and the platform's reset (70 R133). An agent with no enabled step changes nothing (log 1). -/

namespace Sys2Proof.Machine

/-- The host presents a word: `CMD` is written only while `PHASE` = `Ready` (20 R52; log 10). -/
def hostStep (w : Word) (s : State) : State :=
  if s.phase = .ready then { s with cmd := some w } else s

/-- Whether the SPI completion step is enabled: a transfer is pending, or the peripheral is an enabled slave (20 R49). -/
def State.spiEnabled (s : State) : Bool := s.spiPending || (s.spe && !s.mstr)

/-- The SPI completion step with the drawn byte (20 R49). -/
def spiCompletionStep (received : Byte) (s : State) : State :=
  if s.spiEnabled then
    { s with spdrRx := received, spdrRxFilled := true, spsr := spsrCompleted s.spsr, spiPending := false }
  else s

/-- `TWDR` after a bus action: a byte action draws it, a start leaves it (20 R50). -/
def twdrAfter (pending : TwiPending) (old received : Byte) : Byte :=
  match pending with
  | .byteAction => received
  | _ => old

/-- The TWI completion step with the drawn status and byte, enabled while an action is pending (20 R50). -/
def twiCompletionStep (status : BitVec 5) (received : Byte) (s : State) : State :=
  if s.twiPending = .none then s
  else { s with
    twsr := twsrStatus s.twsr status
    twdr := twdrAfter s.twiPending s.twdr received
    twcr := twcrCompleted s.twcr
    twiPending := .none }

/-- The stop-settle step with the drawn status, enabled while `TWSTO` = 1 and no action is pending (20 R51). -/
def stopSettleStep (status : BitVec 5) (s : State) : State :=
  if s.twsto ∧ s.twiPending = .none then
    { s with twcr := twcrStopSettled s.twcr, twsr := twsrStatus s.twsr status }
  else s

/-- Reset, in any state: every register of the block and of the peripherals takes its reset value; the parameters and
what the environment has yet to do are not the machine's to reset (70 R133). -/
def resetStep (s : State) : State := State.afterReset s.params s.turns s.draws

end Sys2Proof.Machine
end

