-- ==== Sys2Proof/Machine/I2cStatus.lean ====
section
/-! DEFINITION. The I2C status decoder (spec 44): the mask and I2C.STATUS. -/

namespace Sys2Proof.Machine

/-- `STATUS_MASK` (00 R7; conflict C1). -/
def statusMask : Byte := 0xF8

/-- `mask(v)`, the decoded status of a raw `TWSR` value (44 R111). -/
def decodeStatus (v : Byte) : Byte := v &&& statusMask

/-- The meanings the spec lists for decoded codes in master modes, for the reader only (44 R116): no rule and no
definition depends on it, and a peripheral may draw any code. -/
def statusMeaning : Nat → Option String
  | 0x08 => some "START transmitted"
  | 0x10 => some "repeated START transmitted"
  | 0x18 => some "SLA+W transmitted, ACK received"
  | 0x20 => some "SLA+W transmitted, NACK received"
  | 0x28 => some "data byte transmitted, ACK received"
  | 0x30 => some "data byte transmitted, NACK received"
  | 0x38 => some "arbitration lost"
  | 0x40 => some "SLA+R transmitted, ACK received"
  | 0x48 => some "SLA+R transmitted, NACK received"
  | 0x50 => some "data byte received, ACK returned"
  | 0x58 => some "data byte received, NACK returned"
  | 0xF8 => some "no relevant state information"
  | 0x00 => some "bus error"
  | _ => none

/-- I2C.STATUS (44 R115). -/
def execI2cStatus (s : State) : Host.Outcome State Fault Refusal :=
  let raw := memRead .twsr s
  .next (returnOk (decodeStatus raw.1) raw.2)

end Sys2Proof.Machine
end

