-- ==== Sys2Proof/Machine/I2cSequencer.lean ====
section
/-! DEFINITION. The I2C bus-state sequencer (spec 43): the valid-before sets of R94, the bit-rate computation, the
configuration commands, the bus commands and the completion step of the blocking ones. -/

namespace Sys2Proof.Machine

/-- 'Valid before' of I2C.INIT (43 R94). -/
def validForInit : BusState → Bool
  | .idle => true
  | _ => false

/-- 'Valid before' of I2C.START (43 R94). -/
def validForStart : BusState → Bool
  | .idle => true
  | .dataPhase => true
  | _ => false

/-- 'Valid before' of I2C.ADDRESS (43 R94). -/
def validForAddress : BusState → Bool
  | .startSent => true
  | _ => false

/-- 'Valid before' of I2C.SEND (43 R94). -/
def validForSend : BusState → Bool
  | .addressed .write => true
  | .dataPhase => true
  | _ => false

/-- 'Valid before' of I2C.READACK and I2C.READNACK (43 R94). -/
def validForRead : BusState → Bool
  | .addressed .read => true
  | .dataPhase => true
  | _ => false

/-- 'Valid before' of I2C.STOP (43 R94). -/
def validForStop : BusState → Bool
  | .startSent => true
  | .addressed _ => true
  | .dataPhase => true
  | _ => false

/-- `TWI_PRESCALER` (00 R7). -/
def twiPrescaler : Nat := 1

/-- `bitrate(F, t)` (43 R100): truncating division, and no value where the formula has no 8-bit one. -/
def bitrate (coreClockHz targetHz : Nat) : Option Nat :=
  if targetHz = 0 then none
  else
    let q := coreClockHz / targetHz
    if q < 16 then none
    else
      let v := (q - 16) / (2 * twiPrescaler)
      if v > 255 then none else some v

/-- The body of I2C.INIT: `TWSR`, `TWBR` and `TWCR` in one atomic step (43 R101; 70 R144). -/
def initTwi (br : Nat) (s : State) : State :=
  let s1 := memWrite .twsr 0x00 s
  let s2 := memWrite .twbr (BitVec.ofNat 8 br) s1
  let s3 := memWrite .twcr 0x04 s2
  returnOk (BitVec.ofNat 8 br) s3

/-- The issue step of a blocking bus command: write `TWCR` and hold for `TWINT` (43 R98, R103). -/
def issueTwi (k : TwiWait) (control : Byte) (s : State) : State := enterPhase (.waitTwi k) (memWrite .twcr control s)

/-- The end of a completion step that returns the masked status (44 R113). -/
def finishWithStatus (after : BusState) (s : State) : State :=
  let raw := memRead .twsr s
  returnOk (decodeStatus raw.1) (setBus after raw.2)

/-- The end of a completion step that returns the received byte (43 R108, R109). -/
def finishWithByte (after : BusState) (s : State) : State :=
  let received := memRead .twdr s
  returnOk received.1 (setBus after received.2)

/-- The completion step of a blocking bus command, once `TWINT` = 1 (43 R104, R106 to R109). -/
def finishTwi (k : TwiWait) (s : State) : State :=
  match k with
  | .start => finishWithStatus .startSent s
  | .address dir => finishWithStatus (.addressed dir) s
  | .sendByte => finishWithStatus .dataPhase s
  | .readAck => finishWithByte .dataPhase s
  | .readNack => finishWithByte .dataPhase s

/-- I2C.INIT (43 R101). -/
def execI2cInit (targetHz : Nat) (s : State) : Host.Outcome State Fault Refusal :=
  .next (match bitrate s.params.coreClockHz targetHz with
    | none => returnError .badBitRate s
    | some br => prologue validForInit (initTwi br) s)

/-- I2C.OWNADDR (43 R102). -/
def execI2cOwnAddr (addr7 : Nat) (s : State) : Host.Outcome State Fault Refusal :=
  .next (returnOk 0x00 (memWrite .twar (ownAddrByte addr7) s))

/-- I2C.START, its issue step (43 R104). -/
def execI2cStart (s : State) : Host.Outcome State Fault Refusal :=
  .next (prologue validForStart (issueTwi .start 0xA4) s)

/-- I2C.ADDRESS, its issue step (43 R106): both argument checks come before the prologue (60 R122). -/
def execI2cAddress (addr dir : Nat) (s : State) : Host.Outcome State Fault Refusal :=
  .next (if validSlaveAddress addr then
      match directionOf dir with
      | none => returnError .badDirectionBit s
      | some d => prologue validForAddress
          (fun s => issueTwi (.address d) 0x84 (memWrite .twdr (slaByte addr d) s)) s
    else returnError .badSlaveAddress s)

/-- I2C.SEND, its issue step (43 R107). -/
def execI2cSend (byte : Byte) (s : State) : Host.Outcome State Fault Refusal :=
  .next (prologue validForSend (fun s => issueTwi .sendByte 0x84 (memWrite .twdr byte s)) s)

/-- I2C.READACK, its issue step (43 R108). -/
def execI2cReadAck (s : State) : Host.Outcome State Fault Refusal :=
  .next (prologue validForRead (issueTwi .readAck 0xC4) s)

/-- I2C.READNACK, its issue step (43 R109). -/
def execI2cReadNack (s : State) : Host.Outcome State Fault Refusal :=
  .next (prologue validForRead (issueTwi .readNack 0x84) s)

/-- I2C.STOP (43 R110): it holds on no completion. -/
def execI2cStop (s : State) : Host.Outcome State Fault Refusal :=
  .next (prologue validForStop (fun s => returnOk 0x00 (setBus .stopPending (memWrite .twcr 0x94 s))) s)

end Sys2Proof.Machine
end

