-- ==== Sys2Proof/Machine/SpiTable.lean ====
section
/-! DEFINITION. The SPI divider validator and the divider/mode table (spec 40): two pure functions and their commands
SPI.VALIDATE and SPI.LOOKUP. -/

namespace Sys2Proof.Machine

/-- `LEGAL(ds)`: the dividers legal for a speed class (40 R69; 00 R7 `LEGAL_X2`, `LEGAL_X1`). -/
def legalDividers : Bool → List Nat
  | true => [2, 8, 32, 64]
  | false => [4, 16, 64, 128]

/-- `validate(ds, d) = Ok` (40 R70). -/
def validDivider (ds : Bool) (d : Nat) : Bool := (legalDividers ds).contains d

/-- The divider class, defined on the seven dividers only (40 R72, R73). -/
def dividerClass : Nat → Option Nat
  | 2 => some 0
  | 4 => some 0
  | 8 => some 1
  | 16 => some 1
  | 32 => some 2
  | 64 => some 3
  | 128 => some 3
  | _ => none

/-- The rows of `TABLE`, by divider class and then mode: data, not branching (40 R75). -/
def dividerModeTable : List (List Byte) :=
  [[0x00, 0x04, 0x08, 0x0C],
   [0x01, 0x05, 0x09, 0x0D],
   [0x02, 0x06, 0x0A, 0x0E],
   [0x03, 0x07, 0x0B, 0x0F]]

/-- `TABLE[c][m]`, for `c` and `m` in 0..3 (40 R75). No command reaches another cell (log 12). -/
def tableCell (c m : Nat) : Byte := (dividerModeTable.getD c []).getD m 0x00

/-- SPI.VALIDATE (40 R76). -/
def execSpiValidate (divider : Nat) (doubleSpeed : Bool) (s : State) : Host.Outcome State Fault Refusal :=
  .next (if validDivider doubleSpeed divider then returnOk 0x00 s else returnError .speedMismatch s)

/-- SPI.LOOKUP (40 R77). -/
def execSpiLookup (cls lmode : Nat) (s : State) : Host.Outcome State Fault Refusal :=
  .next (returnOk (tableCell cls lmode) s)

end Sys2Proof.Machine
end

