-- ==== Sys2Proof/Machine/SpiConfigure.lean ====
section
/-! DEFINITION. The SPI control-pattern composer and SPI.CONFIGURE (spec 41). -/

namespace Sys2Proof.Machine

/-- The control pattern of an accepted configuration (41 R79). -/
def composePattern (divider mode : Nat) (master lsbFirst interruptEnable : Bool) : Byte :=
  tableCell ((dividerClass divider).getD 0) mode
    ||| (boolByte master <<< 4)
    ||| (boolByte lsbFirst <<< 5)
    ||| (1#8 <<< 6)
    ||| (boolByte interruptEnable <<< 7)

/-- The first check a configuration fails, in the order of 41 R81. -/
def configError (divider mode : Nat) (doubleSpeed present : Bool) : Option ErrorCode :=
  if present = false then some .nullConfig
  else if validDivider doubleSpeed divider = false then some .speedMismatch
  else if mode > 3 then some .invalidMode
  else none

/-- What an accepted SPI.CONFIGURE does in its one atomic step (41 R82 to R85). -/
def configureSpi (pattern : Byte) (master doubleSpeed : Bool) (s : State) : State :=
  let s1 := memWrite .spcr pattern s
  let s2 := memWrite .spsr (boolByte doubleSpeed) s1
  let s3 := if master then emitEvent .spiMasterPinDir s2 else s2
  returnOk pattern s3

/-- SPI.CONFIGURE (41 R82). -/
def execSpiConfigure (divider mode : Nat) (master doubleSpeed lsbFirst interruptEnable present : Bool) (s : State) :
    Host.Outcome State Fault Refusal :=
  .next (match configError divider mode doubleSpeed present with
    | some e => returnError e s
    | none => configureSpi (composePattern divider mode master lsbFirst interruptEnable) master doubleSpeed s)

end Sys2Proof.Machine
end

