-- ==== Sys2Proof/Machine/SpiTransfer.lean ====
section
/-! DEFINITION. SPI chip select and byte transfer (spec 42): SPI.SELECT, SPI.DESELECT, SPI.TRANSFER, SPI.SEND, and the
completion step of the last two. -/

namespace Sys2Proof.Machine

/-- Drive a valid line, or report `BadCsLine` (42 R87, R88). -/
def driveLine (line : Nat) (level : CsLevel) (s : State) : State :=
  if s.hasLine line then returnOk 0x00 (driveCs line level s) else returnError .badCsLine s

/-- The issue step of a transfer: write `SPDR` and hold for `SPIF` (42 R90, R91). -/
def issueSpi (k : SpiWait) (byte : Byte) (s : State) : State := enterPhase (.waitSpi k) (memWrite .spdr byte s)

/-- The completion step of a transfer, once `SPIF` = 1: the poll of `SPSR`, the read of `SPDR`, the result (42 R90, R91). -/
def finishSpi (k : SpiWait) (s : State) : State :=
  let polled := memRead .spsr s
  let received := memRead .spdr polled.2
  match k with
  | .transfer => returnOk received.1 received.2
  | .send => returnOk 0x00 received.2

/-- SPI.SELECT (42 R87). -/
def execSpiSelect (line : Nat) (s : State) : Host.Outcome State Fault Refusal := .next (driveLine line .low s)

/-- SPI.DESELECT (42 R88). -/
def execSpiDeselect (line : Nat) (s : State) : Host.Outcome State Fault Refusal := .next (driveLine line .high s)

/-- SPI.TRANSFER, its issue step; `finishSpi .transfer` is its completion step (42 R90). -/
def execSpiTransfer (byte : Byte) (s : State) : Host.Outcome State Fault Refusal := .next (issueSpi .transfer byte s)

/-- SPI.SEND, its issue step; `finishSpi .send` is its completion step (42 R91). -/
def execSpiSend (byte : Byte) (s : State) : Host.Outcome State Fault Refusal := .next (issueSpi .send byte s)

end Sys2Proof.Machine
end

