-- ==== Sys2Proof/Machine/Dispatch.lean ====
section
/-! DEFINITION. The dispatch: one direct call of a meaning for each command of spec 30 R61. -/

namespace Sys2Proof.Machine

def exec (i : Instr) (s : State) : Host.Outcome State Fault Refusal :=
  match i with
  | .spiValidate divider doubleSpeed => Sys2Proof.Machine.execSpiValidate divider doubleSpeed s
  | .spiLookup cls lmode => Sys2Proof.Machine.execSpiLookup cls lmode s
  | .spiConfigure divider mode master doubleSpeed lsbFirst interruptEnable present => Sys2Proof.Machine.execSpiConfigure divider mode master doubleSpeed lsbFirst interruptEnable present s
  | .spiSelect line => Sys2Proof.Machine.execSpiSelect line s
  | .spiDeselect line => Sys2Proof.Machine.execSpiDeselect line s
  | .spiTransfer byte => Sys2Proof.Machine.execSpiTransfer byte s
  | .spiSend byte => Sys2Proof.Machine.execSpiSend byte s
  | .i2cInit targetHz => Sys2Proof.Machine.execI2cInit targetHz s
  | .i2cOwnAddr addr7 => Sys2Proof.Machine.execI2cOwnAddr addr7 s
  | .i2cStart => Sys2Proof.Machine.execI2cStart s
  | .i2cAddress addr dir => Sys2Proof.Machine.execI2cAddress addr dir s
  | .i2cSend byte => Sys2Proof.Machine.execI2cSend byte s
  | .i2cReadAck => Sys2Proof.Machine.execI2cReadAck s
  | .i2cReadNack => Sys2Proof.Machine.execI2cReadNack s
  | .i2cStop => Sys2Proof.Machine.execI2cStop s
  | .i2cStatus => Sys2Proof.Machine.execI2cStatus s

end Sys2Proof.Machine
end

