-- ==== Sys2Proof/Machine/Block.lean ====
section
/-! DEFINITION. The block's own step (spec 20 R53, R54; 30 R62) and the step of whichever agent the environment picks. -/

namespace Sys2Proof.Machine

/-- The decode step: run the command the word stands for, or enter the fault `IllegalCommand` (30 R62, R63). -/
def decodeStep (w : Word) (s : State) : Host.Outcome State Fault Refusal :=
  match decode w with
  | .command i => exec i s
  | .illegal _ => .next (raiseFault .illegalCommand s)

/-- Run the command in `CMD`; with no command the block has no step. -/
def runCommand (s : State) : Host.Outcome State Fault Refusal :=
  match s.cmd with
  | some w => decodeStep w s
  | none => .next s

/-- The block's step. From `Ready` it decodes the command present; from a wait phase it goes on once its hold condition
holds, and has no step before (20 R53, R54); from `WaitSettle` it resumes the command in `CMD`, whose prologue sees the
settled stop (43 R97); `Faulted` has no step (60 R121). Where it has no step, its turn changes nothing (log 1). -/
def blockStep (s : State) : Host.Outcome State Fault Refusal :=
  match s.phase with
  | .ready => runCommand s
  | .waitSpi k => .next (if s.spif then finishSpi k s else s)
  | .waitTwi k => .next (if s.twint then finishTwi k s else s)
  | .waitSettle => if s.twsto then .next s else runCommand s
  | .faulted => .next s

/-- The step of the agent whose turn it is (20 R54). -/
def agentStep (t : Turn) (s : State) : Host.Outcome State Fault Refusal :=
  match t with
  | .host w => .next (hostStep w s)
  | .block => blockStep s
  | .spiCompletes received => .next (spiCompletionStep received s)
  | .twiCompletes status received => .next (twiCompletionStep status received s)
  | .stopSettles status => .next (stopSettleStep status s)
  | .reset => .next (resetStep s)

/-- Whose turn it is: the first choice of the environment already made, else a fresh free one (log 1). -/
def State.nextTurn (s : State) : Turn :=
  match s.turns with
  | t :: _ => t
  | [] => Config.schedule s.draws

/-- The state once that choice is used up. -/
def State.turnTaken (s : State) : State :=
  match s.turns with
  | _ :: rest => { s with turns := rest }
  | [] => { s with draws := s.draws + 1 }

/-- `s` with the word of `nbits` bits `w` presented in `CMD` as the host presents one, the block ready for it, and the
block's turn next (20 R52; 30 R62; log 2). -/
def presentWord (s : State) (nbits w : Nat) : State :=
  { s with phase := .ready, cmd := some (BitVec.ofNat 32 (w % 2 ^ nbits)), turns := .block :: s.turns }

end Sys2Proof.Machine
end

