-- ==== Sys2Proof/Machine/Step.lean ====
section
/-! DEFINITION. One step of the machine: one step of one agent, the one whose turn it is (spec 20 R54). -/

namespace Sys2Proof.Machine

/-- One step: the environment's next choice is used up and the agent it names takes its step. -/
def step (s : State) : Host.Outcome State Fault Refusal := agentStep s.nextTurn s.turnTaken

/-- `s` with the opcode-table word `w` of `nbits` bits stored where the next step takes its command: in `CMD`, the block
ready and its turn next (log 2). -/
def State.withFetchWord (s : State) (nbits w : Nat) : State := presentWord s nbits w

end Sys2Proof.Machine
end

