-- ==== Sys2Proof/Safety.lean ====
section
/-! DEFINITION. What counts as a good state and as the end of a run, in the terms the statements use: a held block
(spec 20 R53), the end of a command program (30 R66), and the invariants of the machine. -/

namespace Sys2Proof.Machine

/-- The block is in a wait phase whose hold condition does not hold: it has no step (20 R53). -/
def State.held (s : State) : Bool :=
  match s.phase with
  | .waitSpi _ => !s.spif
  | .waitTwi _ => !s.twint
  | .waitSettle => s.twsto
  | _ => false

/-- The word the host presents next from a command program: `P[CI]` while `PHASE = Ready` and `CI < length(P)` (30 R66). -/
def programWord (program : List Word) (s : State) : Option Word :=
  if s.phase = .ready then program[s.ci]? else none

/-- A run of a command program has ended (30 R66). -/
def runEnded (program : List Word) (s : State) : Bool :=
  decide (s.phase = .ready) && decide (s.ci = program.length) && decide (s.fault = none)

/-- The bus states in which a transaction is open (43 R99). -/
def BusState.inTransaction : BusState → Bool
  | .startSent => true
  | .addressed _ => true
  | .dataPhase => true
  | _ => false

/-- A command holds for the SPI completion flag (10 R15). -/
def Phase.waitsSpi : Phase → Bool
  | .waitSpi _ => true
  | _ => false

/-- A command holds for the TWI completion flag (10 R15). -/
def Phase.waitsTwi : Phase → Bool
  | .waitTwi _ => true
  | _ => false

/-- The phases in which a command in progress waits for a peripheral (10 R15). -/
def Phase.waiting (p : Phase) : Bool := p.waitsSpi || p.waitsTwi || decide (p = .waitSettle)

/-- The reserved bits read as 0: `SPSR[5:1]`, `TWCR[1]`, `TWSR[2]` (10 R24, R26, R27). -/
abbrev ReservedBitsClear (s : State) : Prop :=
  s.spsr &&& 0x3E = 0 ∧ s.twcr &&& 0x02 = 0 ∧ s.twsr &&& 0x04 = 0

/-- The command registers agree with the phase: a command is in progress in every wait phase (10 R15), and `FAULT` and
`FAULT_CMD` record a fault exactly while the block is stopped by it (10 R17; 60 R120). -/
abbrev CommandRecord (s : State) : Prop :=
  (s.phase.waiting = true → s.cmd.isSome = true) ∧
  (s.phase = .faulted ↔ s.fault.isSome = true) ∧
  (s.phase = .faulted → s.cmd = some s.faultCmd)

/-- The sequencer and the TWI peripheral agree: `TWINT` = 1 whenever a transaction is open and the block is ready (43
R99) or in an SPI transfer; a bus action is pending only while a bus command waits for it, with `TWINT` = 0; a waiting
bus command has an action pending or its completion flag set; settling happens only in `StopPending` (43 R97). -/
abbrev TwiHandshake (s : State) : Prop :=
  (s.bus.inTransaction = true → (s.phase = .ready ∨ s.phase.waitsSpi = true) → s.twint = true) ∧
  (s.twiPending ≠ .none → s.twint = false ∧ s.twsto = false ∧ s.phase.waitsTwi = true) ∧
  (s.phase.waitsTwi = true → s.twiPending ≠ .none ∨ s.twint = true) ∧
  (s.phase = .waitSettle → s.bus = .stopPending)

/-- `SPIF` = 1 only once `SPDR_RX` holds a value (20 R41). -/
abbrev SpiHandshake (s : State) : Prop := s.spif = true → s.spdrRxFilled = true

/-- `CS` has exactly one entry for each line of `CS_LINES`, in its order (10 R14, R20). -/
abbrev CsRecord (s : State) : Prop := s.cs.map (fun entry => entry.1) = s.params.csLines

/-- The TWI interrupt is never enabled: every `TWCR` value the block writes has `TWIE` = 0 (43 R98; 60 R126). -/
abbrev TwiInterruptOff (s : State) : Prop := s.twie = false

/-! The spec's tables once more, as the statements use them: written from the spec's text, not from the model. -/

/-- The rows of the opcode table: match and mask (30 R59, R61; opcode_table.json). -/
def commandRows : List (Word × Word) :=
  [(0x00000001, 0xFDFF00FF), (0x00000002, 0xFFFCFCFF), (0x00000003, 0xE00000FF), (0x00000004, 0xFFFF00FF),
   (0x00000005, 0xFFFF00FF), (0x00000006, 0xFFFF00FF), (0x00000007, 0xFFFF00FF), (0x00000010, 0x000000FF),
   (0x00000011, 0xFFFF80FF), (0x00000012, 0xFFFFFFFF), (0x00000013, 0xFF0000FF), (0x00000014, 0xFFFF00FF),
   (0x00000015, 0xFFFFFFFF), (0x00000016, 0xFFFFFFFF), (0x00000017, 0xFFFFFFFF), (0x00000018, 0xFFFFFFFF)]

/-- The divider is legal for the speed class (40 R69). -/
abbrev LegalDivider (doubleSpeed : Bool) (d : Nat) : Prop :=
  (doubleSpeed = true ∧ (d = 2 ∨ d = 8 ∨ d = 32 ∨ d = 64)) ∨
  (doubleSpeed = false ∧ (d = 4 ∨ d = 16 ∨ d = 64 ∨ d = 128))

/-- The class number of a legal divider (40 R72). -/
def classNumber (d : Nat) : Nat := if d ≤ 4 then 0 else if d ≤ 16 then 1 else if d = 32 then 2 else 3

/-- The bit-rate formula gives an 8-bit value (43 R100). -/
abbrev BitRateFits (coreClockHz targetHz : Nat) : Prop :=
  targetHz ≠ 0 ∧ 16 ≤ coreClockHz / targetHz ∧ (coreClockHz / targetHz - 16) / 2 ≤ 255

/-- The seven commands that settle a pending stop, once their argument checks pass (43 R97, R101, R106). -/
def settles (coreClockHz : Nat) : Instr → Bool
  | .i2cInit hz => decide (BitRateFits coreClockHz hz)
  | .i2cAddress addr dir => decide (1 ≤ addr ∧ addr ≤ 127 ∧ dir ≤ 1)
  | .i2cStart => true
  | .i2cSend _ => true
  | .i2cReadAck => true
  | .i2cReadNack => true
  | .i2cStop => true
  | _ => false

/-- The table of 43 R94, column 'valid before'. -/
def validBefore : Instr → List BusState
  | .i2cInit _ => [.idle]
  | .i2cStart => [.idle, .dataPhase]
  | .i2cAddress _ _ => [.startSent]
  | .i2cSend _ => [.addressed .write, .dataPhase]
  | .i2cReadAck => [.addressed .read, .dataPhase]
  | .i2cReadNack => [.addressed .read, .dataPhase]
  | .i2cStop => [.startSent, .addressed .write, .addressed .read, .dataPhase]
  | _ => [.idle, .startSent, .addressed .write, .addressed .read, .dataPhase, .stopPending]

/-- The table of 43 R94, column 'after', for the blocking commands. -/
def busAfter : TwiWait → BusState
  | .start => .startSent
  | .address dir => .addressed dir
  | .sendByte => .dataPhase
  | .readAck => .dataPhase
  | .readNack => .dataPhase

/-- What a blocking bus command returns: the received byte for a read, else the masked status (44 R113). -/
def returnsByte : TwiWait → Bool
  | .readAck => true
  | .readNack => true
  | _ => false

/-- The commands of the SPI side (spec files 40 to 42). -/
def isSpi : Instr → Bool
  | .spiValidate _ _ => true
  | .spiLookup _ _ => true
  | .spiConfigure _ _ _ _ _ _ _ => true
  | .spiSelect _ => true
  | .spiDeselect _ => true
  | .spiTransfer _ => true
  | .spiSend _ => true
  | _ => false

/-- No SPI register, chip-select line or event differs. -/
abbrev SameSpi (s t : State) : Prop :=
  t.spcr = s.spcr ∧ t.spsr = s.spsr ∧ t.spdrTx = s.spdrTx ∧ t.spdrRx = s.spdrRx ∧ t.spdrRxFilled = s.spdrRxFilled ∧
  t.spiPending = s.spiPending ∧ t.cs = s.cs ∧ t.events = s.events

/-- No TWI register differs, nor the sequencer's bus state. -/
abbrev SameTwi (s t : State) : Prop :=
  t.twcr = s.twcr ∧ t.twsr = s.twsr ∧ t.twbr = s.twbr ∧ t.twar = s.twar ∧ t.twdr = s.twdr ∧
  t.twiPending = s.twiPending ∧ t.bus = s.bus

/-- No register of the block differs but `CMD`. -/
abbrev SameBlock (s t : State) : Prop :=
  t.phase = s.phase ∧ t.bus = s.bus ∧ t.fault = s.fault ∧ t.faultCmd = s.faultCmd ∧ t.resultCode = s.resultCode ∧
  t.resultValue = s.resultValue ∧ t.ci = s.ci ∧ t.cs = s.cs ∧ t.events = s.events

end Sys2Proof.Machine
end

