-- ==== Sys2Proof/Certificates/Slice0/Obligations.lean ====
section
/-! DEFINITION. The statements about the model, for the provers: encoding, the meaning of each command with its frame,
the peripherals' steps, faults and reset, and the invariants every step keeps. -/

section

open Sys2Proof Sys2Proof.Machine

/-! ### Encoding (spec 30) -/

/-- Decoding the encoded word of any well-formed command gives the command back: no bit of an operand is dropped. -/
def Obligations.DecodeUndoesEncode : Prop :=
  ∀ i : Instr, i.wellFormed = true → decode (encode i) = .command i

/-- A word that decodes is the encoding of what it decodes to, which is well formed: every word has one meaning. -/
def Obligations.EncodeUndoesDecode : Prop :=
  ∀ (w : Word) (i : Instr), decode w = .command i → i.wellFormed = true ∧ encode i = w

/-- 30 R62: a word decodes exactly if it matches a row of the opcode table, then it matches that row only, and the
command read is that row's. -/
def Obligations.DecodingSelectsExactlyOneRow : Prop :=
  ∀ w : Word,
    ((∃ i, decode w = .command i) ↔ ∃ r ∈ commandRows, w &&& r.2 = r.1) ∧
    (∀ r ∈ commandRows, ∀ q ∈ commandRows, w &&& r.2 = r.1 → w &&& q.2 = q.1 → r = q) ∧
    (∀ i, decode w = .command i → ∀ r ∈ commandRows, w &&& r.2 = r.1 →
      r = (i.opcode.setWidth 32, i.format.mask))

/-- Words written out from the spec's examples decode to the commands they stand for. -/
def Obligations.ExampleWordsDecode : Prop :=
  decode 0x02000801 = .command (.spiValidate 8 true) ∧
  decode 0x00020302 = .command (.spiLookup 3 2) ∧
  decode 0x11000403 = .command (.spiConfigure 4 0 true false false false true) ∧
  decode 0x0000A506 = .command (.spiTransfer 0xA5) ∧
  decode 0x0186A010 = .command (.i2cInit 100000) ∧
  decode 0x00014013 = .command (.i2cAddress 64 1) ∧
  decode 0x00000112 = .illegal .constrainedBits ∧
  decode 0x00000019 = .illegal .unassignedOpcode

/-- 20 R39: a serialised command word is read with byte 0 as bits 7:0, whatever follows it. -/
def Obligations.SerialisedCommandIsLittleEndian : Prop :=
  ∀ (b0 b1 b2 b3 : Byte) (rest : List Byte),
    decodeBytes (b0 :: b1 :: b2 :: b3 :: rest) =
      (decode (BitVec.ofNat 32 (b0.toNat + 256 * b1.toNat + 65536 * b2.toNat + 16777216 * b3.toNat)), rest)

/-- When the word in `CMD` decodes to a command and the block may decode it (`Ready`, or a settled `WaitSettle`), a
step of the block is `exec` of that command; around it the step only uses up the environment's choice. That a step
uses up one choice (log 1) and that a settled `WaitSettle` decodes `CMD` again (log 19) are the model's. -/
def Obligations.StepRunsDecodedCommand : Prop :=
  ∀ (s : State) (w : Word) (i : Instr),
    s.nextTurn = .block → s.cmd = some w → decode w = .command i →
    (s.phase = .ready ∨ (s.phase = .waitSettle ∧ s.twcr[4] = false)) →
    i.wellFormed = true ∧
    step s = exec i { s with
      turns := s.turns.tail, draws := if s.turns = [] then s.draws + 1 else s.draws }

/-- 30 R63: a word with an unassigned opcode, or with an assigned one and a nonzero constrained bit, enters the fault
`IllegalCommand` and changes nothing else. -/
def Obligations.IllegalWordEntersFault : Prop :=
  ∀ (s : State) (w : Word) (rest : List Turn),
    s.turns = .block :: rest → s.phase = .ready → s.cmd = some w →
    ((w.extractLsb' 0 8).toNat = 0x00 ∨
      (0x08 ≤ (w.extractLsb' 0 8).toNat ∧ (w.extractLsb' 0 8).toNat ≤ 0x0F) ∨
      0x19 ≤ (w.extractLsb' 0 8).toNat ∨
      (∃ r ∈ commandRows, w &&& 0xFF = r.1 ∧ w &&& r.2 ≠ r.1)) →
    step s = .next { s with
      turns := rest, phase := .faulted, fault := some .illegalCommand, faultCmd := w }

/-! ### SPI divider validator and table (spec 40) -/

/-- 40 R70: SPI.VALIDATE succeeds exactly on the legal dividers of the speed class, and touches no register. That
`CMD` is left empty is the model's reading (log 9). -/
def Obligations.ValidateAcceptsExactlyLegalDividers : Prop :=
  ∀ (d : Nat) (x2 : Bool) (s : State),
    exec (.spiValidate d x2) s = .next { s with
      cmd := none, phase := .ready, ci := s.ci + 1, resultValue := 0x00,
      resultCode := if LegalDivider x2 d then 0x00 else 0x02 }

/-- 40 R75, R77: SPI.LOOKUP returns the table cell of its class and mode, and touches no register. That `CMD` is left
empty is the model's reading (log 9). -/
def Obligations.LookupReturnsTableCell : Prop :=
  ∀ (c m : Nat) (s : State), c < 4 → m < 4 →
    exec (.spiLookup c m) s = .next { s with
      cmd := none, phase := .ready, ci := s.ci + 1, resultCode := 0x00,
      resultValue := (BitVec.ofNat 8 (m / 2) <<< 3) ||| (BitVec.ofNat 8 (m % 2) <<< 2) ||| BitVec.ofNat 8 c }

/-! ### SPI control-pattern composer (spec 41) -/

/-- 41 R79, R82, R83, R85: an accepted SPI.CONFIGURE writes the composed pattern to `SPCR`, whatever it held (R80),
and the speed bit to `SPSR`, emits the event in master mode only, returns the pattern, and changes nothing else. That
`CMD` is left empty is the model's reading (log 9). -/
def Obligations.ConfigureProgramsSpi : Prop :=
  ∀ (d m : Nat) (ma x2 lsb ie : Bool) (s : State), LegalDivider x2 d → m ≤ 3 →
    let p : Byte := BitVec.ofNat 8
      (128 * ie.toNat + 64 + 32 * lsb.toNat + 16 * ma.toNat + 4 * m + classNumber d)
    exec (.spiConfigure d m ma x2 lsb ie true) s = .next { s with
      cmd := none, phase := .ready, ci := s.ci + 1, resultCode := 0x00, resultValue := p,
      spcr := p, spsr := (s.spsr &&& 0xFE) ||| BitVec.ofNat 8 x2.toNat,
      events := if ma then s.events ++ [.spiMasterPinDir] else s.events }

/-- 41 R81 with 60 R118: a rejected SPI.CONFIGURE reports the first failing check and changes nothing else. That `CMD`
is left empty is the model's reading (log 9). -/
def Obligations.ConfigureRejectsInOrder : Prop :=
  ∀ (d m : Nat) (ma x2 lsb ie pr : Bool) (s : State),
    (pr = false ∨ ¬ LegalDivider x2 d ∨ 3 < m) →
    exec (.spiConfigure d m ma x2 lsb ie pr) s = .next { s with
      cmd := none, phase := .ready, ci := s.ci + 1, resultValue := 0x00,
      resultCode := if pr = false then 0x03 else if ¬ LegalDivider x2 d then 0x02 else 0x01 }

/-! ### SPI chip select and transfer (spec 42) -/

/-- 42 R87, R88: SPI.SELECT drives its line low and SPI.DESELECT drives it high; no other line and no register of the
peripherals changes. That `CMD` is left empty is the model's reading (log 9). -/
def Obligations.SelectAndDeselectDriveTheLine : Prop :=
  ∀ (l : Nat) (s : State), l ∈ s.params.csLines → CsRecord s →
    (∃ t, exec (.spiSelect l) s = .next t ∧ t.csLevel l = some .low ∧
      (∀ k, k ≠ l → t.csLevel k = s.csLevel k) ∧
      t = { s with cmd := none, phase := .ready, ci := s.ci + 1, resultCode := 0x00, resultValue := 0x00, cs := t.cs }) ∧
    (∃ t, exec (.spiDeselect l) s = .next t ∧ t.csLevel l = some .high ∧
      (∀ k, k ≠ l → t.csLevel k = s.csLevel k) ∧
      t = { s with cmd := none, phase := .ready, ci := s.ci + 1, resultCode := 0x00, resultValue := 0x00, cs := t.cs })

/-- 42 R89: a second SPI.DESELECT, or a second SPI.SELECT, of a line changes no line, and the line is high, or low,
after both, whatever it was before. -/
def Obligations.ChipSelectDoesNotToggle : Prop :=
  ∀ (l : Nat) (s t u : State),
    (exec (.spiDeselect l) s = .next t → exec (.spiDeselect l) t = .next u →
      u.cs = t.cs ∧ (l ∈ s.params.csLines → CsRecord s → t.csLevel l = some .high ∧ u.csLevel l = some .high)) ∧
    (exec (.spiSelect l) s = .next t → exec (.spiSelect l) t = .next u →
      u.cs = t.cs ∧ (l ∈ s.params.csLines → CsRecord s → t.csLevel l = some .low ∧ u.csLevel l = some .low))

/-- 42 R87, R88 with 60 R118: a line outside `CS_LINES` is reported and nothing else changes. That `CMD` is left empty
is the model's reading (log 9). -/
def Obligations.UnknownLineIsReported : Prop :=
  ∀ (l : Nat) (s : State), l ∉ s.params.csLines →
    (exec (.spiSelect l) s = .next { s with
      cmd := none, phase := .ready, ci := s.ci + 1, resultCode := 0x07, resultValue := 0x00 }) ∧
    (exec (.spiDeselect l) s = .next { s with
      cmd := none, phase := .ready, ci := s.ci + 1, resultCode := 0x07, resultValue := 0x00 })

/-- 42 R90, R91: SPI.TRANSFER and SPI.SEND write the byte to `SPDR`, which starts a transfer if `SPE` = 1 (20 R45),
and hold; nothing else changes. -/
def Obligations.TransferAndSendIssue : Prop :=
  ∀ (b : Byte) (s : State),
    (exec (.spiTransfer b) s = .next { s with
      phase := .waitSpi .transfer, spdrTx := b,
      spsr := if s.spiPending then s.spsr ||| 0x40 else s.spsr,
      spiPending := s.spiPending || s.spcr[6] }) ∧
    (exec (.spiSend b) s = .next { s with
      phase := .waitSpi .send, spdrTx := b,
      spsr := if s.spiPending then s.spsr ||| 0x40 else s.spsr,
      spiPending := s.spiPending || s.spcr[6] })

/-- 42 R90 to R92: once `SPIF` = 1, the completion step returns the received byte (SPI.SEND discards it), clears
`SPIF` and `WCOL`, and changes nothing else. That `CMD` is left empty is the model's reading (log 9). -/
def Obligations.SpiCompletionReturnsAndClears : Prop :=
  ∀ (k : SpiWait) (s : State) (rest : List Turn),
    s.turns = .block :: rest → s.phase = .waitSpi k → s.spsr[7] = true → SpiHandshake s →
    step s = .next { s with
      turns := rest, cmd := none, phase := .ready, ci := s.ci + 1, resultCode := 0x00,
      resultValue := if k = .transfer then s.spdrRx else 0x00, spsr := s.spsr &&& 0x3F }

/-- 42 R90: a whole SPI.TRANSFER, with the SPI enabled and one completion that delivers `r`, returns `r` and leaves
`SPIF` = 0. That `CMD` is left empty is the model's reading (log 9). -/
def Obligations.TransferExchangesOneByte : Prop :=
  ∀ (s : State) (w : Word) (b r : Byte) (rest : List Turn),
    s.phase = .ready → s.cmd = some w → decode w = .command (.spiTransfer b) →
    s.spcr[6] = true → s.spiPending = false →
    s.turns = .block :: .spiCompletes r :: .block :: rest →
    Host.Core.run Sys2Proof.core 3 s = .next { s with
      turns := rest, cmd := none, phase := .ready, ci := s.ci + 1, resultCode := 0x00, resultValue := r,
      spdrTx := b, spdrRx := r, spdrRxFilled := true, spsr := s.spsr &&& 0x3F }

/-- 70 R142(a): with `SPIF` already 1, SPI.TRANSFER returns the earlier byte at once, and the transfer it started is
still pending. That `CMD` is left empty is the model's reading (log 9). -/
def Obligations.StaleByteReturnsAtOnce : Prop :=
  ∀ (s : State) (w : Word) (b : Byte) (rest : List Turn),
    s.phase = .ready → s.cmd = some w → decode w = .command (.spiTransfer b) →
    s.spcr[6] = true → s.spiPending = false → s.spsr[7] = true → SpiHandshake s →
    s.turns = .block :: .block :: rest →
    Host.Core.run Sys2Proof.core 2 s = .next { s with
      turns := rest, cmd := none, phase := .ready, ci := s.ci + 1, resultCode := 0x00, resultValue := s.spdrRx,
      spdrTx := b, spsr := s.spsr &&& 0x3F, spiPending := true }

/-- 42 R93: a transfer held with the SPI disabled, nothing pending and `SPIF` = 0 is held in the same way after every step
that is not reset, whatever the environment does. -/
def Obligations.TransferWithSpiDisabledHangs : Prop :=
  ∀ (k : SpiWait) (s t : State),
    s.phase = .waitSpi k → s.spcr[6] = false → s.spiPending = false → s.spsr[7] = false →
    s.nextTurn ≠ .reset → step s = .next t →
    t.phase = .waitSpi k ∧ t.spcr[6] = false ∧ t.spiPending = false ∧ t.spsr[7] = false ∧
    t.ci = s.ci ∧ t.cmd = s.cmd

/-! ### I2C sequencer (spec 43) and status decoder (spec 44) -/

/-- 43 R100, R101: I2C.INIT from `Idle` programs prescaler, bit rate and enable, returns the bit-rate value, and
changes nothing else. That `CMD` is left empty is the model's reading (log 9). -/
def Obligations.InitProgramsBitRate : Prop :=
  ∀ (hz : Nat) (s : State), s.bus = .idle → BitRateFits s.params.coreClockHz hz →
    let br : Byte := BitVec.ofNat 8 ((s.params.coreClockHz / hz - 16) / 2)
    exec (.i2cInit hz) s = .next { s with
      cmd := none, phase := .ready, ci := s.ci + 1, resultCode := 0x00, resultValue := br,
      twsr := s.twsr &&& 0xFC, twbr := br, twcr := (s.twcr &&& 0x8A) ||| 0x04 }

/-- 43 R100, R101 with 60 R118: a target without an 8-bit bit rate is reported in every bus state, and nothing else
changes. That `CMD` is left empty is the model's reading (log 9). -/
def Obligations.InitReportsBadBitRate : Prop :=
  ∀ (hz : Nat) (s : State), ¬ BitRateFits s.params.coreClockHz hz →
    exec (.i2cInit hz) s = .next { s with
      cmd := none, phase := .ready, ci := s.ci + 1, resultCode := 0x06, resultValue := 0x00 }

/-- 43 R102: I2C.OWNADDR stores the address in the upper seven bits of `TWAR`, in every bus state, and changes nothing
else. That `CMD` is left empty is the model's reading (log 9). -/
def Obligations.OwnAddrStoresAddress : Prop :=
  ∀ (a : Nat) (s : State), a < 128 →
    exec (.i2cOwnAddr a) s = .next { s with
      cmd := none, phase := .ready, ci := s.ci + 1, resultCode := 0x00, resultValue := 0x00,
      twar := BitVec.ofNat 8 (2 * a) }

/-- 43 R104: I2C.START from `Idle` or `DataPhase` triggers a start action and holds. -/
def Obligations.StartIssues : Prop :=
  ∀ s : State, (s.bus = .idle ∨ s.bus = .dataPhase) →
    exec .i2cStart s = .next { s with
      phase := .waitTwi .start, twcr := 0x24 ||| (s.twcr &&& 0x0A), twiPending := .startAction }

/-- 43 R105, R106: I2C.ADDRESS from `StartSent` puts the address byte in `TWDR`, triggers a byte action and holds. -/
def Obligations.AddressIssues : Prop :=
  ∀ (a : Nat) (dir : Direction) (s : State),
    1 ≤ a → a ≤ 127 → s.bus = .startSent → s.twcr[7] = true →
    exec (.i2cAddress a (if dir = .read then 1 else 0)) s = .next { s with
      phase := .waitTwi (.address dir), twdr := BitVec.ofNat 8 (2 * a + if dir = .read then 1 else 0),
      twcr := 0x04 ||| (s.twcr &&& 0x02), twiPending := .byteAction }

/-- 43 R106 with 60 R118, R122: a bad address, or else a bad direction, is reported in every bus state before anything
is touched. That `CMD` is left empty is the model's reading (log 9). -/
def Obligations.AddressReportsBadOperands : Prop :=
  ∀ (a d : Nat) (s : State), (a = 0 ∨ 127 < a ∨ 1 < d) →
    exec (.i2cAddress a d) s = .next { s with
      cmd := none, phase := .ready, ci := s.ci + 1, resultValue := 0x00,
      resultCode := if a = 0 ∨ 127 < a then 0x04 else 0x05 }

/-- 43 R107: I2C.SEND from `Addressed(0)` or `DataPhase` puts its byte in `TWDR`, triggers a byte action and holds. -/
def Obligations.SendIssues : Prop :=
  ∀ (b : Byte) (s : State),
    (s.bus = .addressed .write ∨ s.bus = .dataPhase) → s.twcr[7] = true →
    exec (.i2cSend b) s = .next { s with
      phase := .waitTwi .sendByte, twdr := b, twcr := 0x04 ||| (s.twcr &&& 0x02), twiPending := .byteAction }

/-- 43 R108, R109: I2C.READACK and I2C.READNACK from `Addressed(1)` or `DataPhase` trigger a byte action, with and
without acknowledge, and hold. -/
def Obligations.ReadsIssue : Prop :=
  ∀ s : State, (s.bus = .addressed .read ∨ s.bus = .dataPhase) →
    (exec .i2cReadAck s = .next { s with
      phase := .waitTwi .readAck, twcr := 0x44 ||| (s.twcr &&& 0x0A), twiPending := .byteAction }) ∧
    (exec .i2cReadNack s = .next { s with
      phase := .waitTwi .readNack, twcr := 0x04 ||| (s.twcr &&& 0x0A), twiPending := .byteAction })

/-- 43 R110: I2C.STOP in an open transaction asks for the stop, completes at once and leaves `StopPending`. That `CMD`
is left empty is the model's reading (log 9). -/
def Obligations.StopDoesNotBlock : Prop :=
  ∀ s : State,
    (s.bus = .startSent ∨ s.bus = .addressed .write ∨ s.bus = .addressed .read ∨ s.bus = .dataPhase) →
    exec .i2cStop s = .next { s with
      cmd := none, phase := .ready, ci := s.ci + 1, resultCode := 0x00, resultValue := 0x00,
      bus := .stopPending, twcr := 0x14 ||| (s.twcr &&& 0x0A) }

/-- 44 R111, R115: I2C.STATUS returns the status register without its low three bits, in every bus state, and changes
nothing else. That `CMD` is left empty is the model's reading (log 9). -/
def Obligations.StatusReturnsMaskedRegister : Prop :=
  ∀ s : State,
    exec .i2cStatus s = .next { s with
      cmd := none, phase := .ready, ci := s.ci + 1, resultCode := 0x00,
      resultValue := BitVec.ofNat 8 (s.twsr.toNat / 8 * 8) }

/-- 43 R104, R106 to R109: once `TWINT` = 1, the completion step sets `BUS` by the table of R94, returns the masked
status or the received byte, and changes nothing else. That `CMD` is left empty is the model's reading (log 9). -/
def Obligations.TwiCompletionReturnsAndMovesBus : Prop :=
  ∀ (k : TwiWait) (s : State) (rest : List Turn),
    s.turns = .block :: rest → s.phase = .waitTwi k → s.twcr[7] = true →
    step s = .next { s with
      turns := rest, cmd := none, phase := .ready, ci := s.ci + 1, resultCode := 0x00, bus := busAfter k,
      resultValue := if returnsByte k then s.twdr else s.twsr &&& 0xF8 }

/-- 43 R104: a whole I2C.START, with one completion that draws the status code `st`, returns it and leaves
`StartSent`. That `CMD` is left empty is the model's reading (log 9). -/
def Obligations.StartReturnsDrawnStatus : Prop :=
  ∀ (s : State) (w : Word) (st : BitVec 5) (b : Byte) (rest : List Turn),
    s.phase = .ready → s.cmd = some w → decode w = .command .i2cStart → (s.bus = .idle ∨ s.bus = .dataPhase) →
    s.turns = .block :: .twiCompletes st b :: .block :: rest →
    Host.Core.run Sys2Proof.core 3 s = .next { s with
      turns := rest, cmd := none, phase := .ready, ci := s.ci + 1, resultCode := 0x00,
      resultValue := BitVec.ofNat 8 (8 * st.toNat), bus := .startSent,
      twcr := 0xA4 ||| (s.twcr &&& 0x0A), twsr := BitVec.ofNat 8 (8 * st.toNat) ||| (s.twsr &&& 0x07),
      twiPending := .none }

/-- 43 R108: a whole I2C.READACK, with one completion that draws the byte `b`, returns it and leaves `DataPhase`. That
`CMD` is left empty is the model's reading (log 9). -/
def Obligations.ReadReturnsDrawnByte : Prop :=
  ∀ (s : State) (w : Word) (st : BitVec 5) (b : Byte) (rest : List Turn),
    s.phase = .ready → s.cmd = some w → decode w = .command .i2cReadAck →
    (s.bus = .addressed .read ∨ s.bus = .dataPhase) →
    s.turns = .block :: .twiCompletes st b :: .block :: rest →
    Host.Core.run Sys2Proof.core 3 s = .next { s with
      turns := rest, cmd := none, phase := .ready, ci := s.ci + 1, resultCode := 0x00, resultValue := b,
      bus := .dataPhase, twdr := b, twcr := 0xC4 ||| (s.twcr &&& 0x0A),
      twsr := BitVec.ofNat 8 (8 * st.toNat) ||| (s.twsr &&& 0x07), twiPending := .none }

/-- 43 R96 with 60 R120: an I2C command whose arguments pass enters the fault `SequenceViolation` outside its
valid-before set, and changes nothing else; after settling, the set is asked about `Idle`, and `BUS` keeps that value.
-/
def Obligations.InvalidBusStateEntersFault : Prop :=
  ∀ (i : Instr) (s : State) (w : Word),
    s.cmd = some w → settles s.params.coreClockHz i = true →
    (s.bus ≠ .stopPending → s.bus ∉ validBefore i →
      exec i s = .next { s with phase := .faulted, fault := some .sequenceViolation, faultCmd := w }) ∧
    (s.bus = .stopPending → s.phase = .waitSettle → s.twcr[4] = false → .idle ∉ validBefore i →
      exec i s = .next { s with
        phase := .faulted, fault := some .sequenceViolation, faultCmd := w, bus := .idle })

/-- 43 R97: in `StopPending` a settling I2C command whose arguments pass holds in `WaitSettle`; from there, once
`TWSTO` = 0, it runs as it runs from `Idle`. That the hold is a step of its own even with `TWSTO` = 0 already is the
model's reading (log 11). -/
def Obligations.StopPendingSettlesFirst : Prop :=
  ∀ (i : Instr) (s : State), settles s.params.coreClockHz i = true → s.bus = .stopPending →
    (s.phase = .ready → exec i s = .next { s with phase := .waitSettle }) ∧
    (s.phase = .waitSettle → s.twcr[4] = false → exec i s = exec i { s with bus := .idle })

/-- 43 R97: I2C.START after a stop: it holds, the stop settles with the drawn status, and the start is issued from
`Idle`. -/
def Obligations.StartAfterStopSettlesThenIssues : Prop :=
  ∀ (s : State) (w : Word) (st : BitVec 5) (rest : List Turn),
    s.phase = .ready → s.cmd = some w → decode w = .command .i2cStart → s.bus = .stopPending →
    s.twcr[4] = true → s.twiPending = .none →
    s.turns = .block :: .stopSettles st :: .block :: rest →
    Host.Core.run Sys2Proof.core 3 s = .next { s with
      turns := rest, phase := .waitTwi .start, bus := .idle, twcr := 0x24 ||| (s.twcr &&& 0x0A),
      twsr := BitVec.ofNat 8 (8 * st.toNat) ||| (s.twsr &&& 0x07), twiPending := .startAction }

/-- 60 R120, conflict C6: I2C.SEND after a stop settles and then faults, and the fault finds `BUS` = `Idle`, `TWSTO` =
0 and the drawn status. -/
def Obligations.SendAfterStopSettlesThenFaults : Prop :=
  ∀ (s : State) (w : Word) (b : Byte) (st : BitVec 5) (rest : List Turn),
    s.phase = .ready → s.cmd = some w → decode w = .command (.i2cSend b) → s.bus = .stopPending →
    s.twcr[4] = true → s.twiPending = .none →
    s.turns = .block :: .stopSettles st :: .block :: rest →
    Host.Core.run Sys2Proof.core 3 s = .next { s with
      turns := rest, phase := .faulted, fault := some .sequenceViolation, faultCmd := w, bus := .idle,
      twcr := s.twcr &&& 0xEF, twsr := BitVec.ofNat 8 (8 * st.toNat) ||| (s.twsr &&& 0x07) }

/-- 43 R95, 44 R114: status steers nothing. Two states that differ at most in `TWSR` and in `RESULT_VALUE` (where a
returned status sits) differ at most in these two after any step with the same choice of the environment, so the relation
is kept by every step and chains over runs. -/
def Obligations.StatusSteersNothing : Prop :=
  ∀ (s t : State) (v r : Byte), step s = .next t →
    ∃ v' r' : Byte, step { s with twsr := v, resultValue := r } = .next { t with twsr := v', resultValue := r' }

/-! ### Register accesses (spec 20) -/

/-- 20 R41, R42: a read of `SPDR` returns `SPDR_RX` and clears `SPIF` and `WCOL`; every other read returns the
register and changes nothing. -/
def Obligations.ReadSideEffects : Prop :=
  ∀ s : State,
    (∀ r : Reg, r ≠ .spdr → memRead r s = (s.reg r, s)) ∧
    (s.spdrRxFilled = true → memRead .spdr s = (s.spdrRx, { s with spsr := s.spsr &&& 0x3F })) ∧
    (memRead .spdr s).2.spsr = s.spsr &&& 0x3F

/-- 20 R43, R44, R45, R47: what a write does to `SPCR`, `SPSR`, `SPDR` and `TWSR`. -/
def Obligations.WriteSideEffects : Prop :=
  ∀ (v : Byte) (s : State),
    memWrite .spcr v s = { s with spcr := v } ∧
    memWrite .spsr v s = { s with spsr := (s.spsr &&& 0xFE) ||| (v &&& 0x01) } ∧
    memWrite .spdr v s = { s with
      spdrTx := v, spsr := if s.spiPending then s.spsr ||| 0x40 else s.spsr,
      spiPending := s.spiPending || s.spcr[6] } ∧
    memWrite .twsr v s = { s with twsr := (s.twsr &&& 0xFC) ||| (v &&& 0x03) }

/-- 20 R46: what a write of `TWCR` does, bit by bit, and which bus action it triggers. -/
def Obligations.ControlWriteTriggersAction : Prop :=
  ∀ (v : Byte) (s : State),
    let t := memWrite .twcr v s
    t = { s with twcr := t.twcr, twiPending := t.twiPending } ∧
    t.twcr[6] = v[6] ∧ t.twcr[5] = v[5] ∧ t.twcr[4] = v[4] ∧
    t.twcr[2] = v[2] ∧ t.twcr[0] = v[0] ∧
    t.twcr[3] = s.twcr[3] ∧ t.twcr[1] = s.twcr[1] ∧
    t.twcr[7] = (s.twcr[7] && !v[7]) ∧
    t.twiPending =
      if v[7] = true ∧ v[2] = true ∧ v[4] = false then
        (if v[5] then .startAction else .byteAction)
      else s.twiPending

/-- 20 R48: a write of `TWBR` or `TWAR` stores the byte; a write of `TWDR` stores it and clears `TWWC` while `TWINT` =
1, and while `TWINT` = 0 sets `TWWC` and leaves any byte in `TWDR`. -/
def Obligations.DataWriteStoresOrCollides : Prop :=
  ∀ (v : Byte) (s : State),
    memWrite .twbr v s = { s with twbr := v } ∧
    memWrite .twar v s = { s with twar := v } ∧
    (s.twcr[7] = true → memWrite .twdr v s = { s with twdr := v, twcr := s.twcr &&& 0xF7 }) ∧
    (s.twcr[7] = false → ∃ (b : Byte) (draws' : Nat),
      memWrite .twdr v s = { s with twdr := b, twcr := s.twcr ||| 0x08, draws := draws' })

/-! ### The other agents (spec 20), faults and reset (spec 60, 70) -/

/-- 20 R49: the SPI completion step, when it is enabled; when it is not, its turn changes nothing (the latter is the
model's choice, log 1). -/
def Obligations.SpiPeripheralStep : Prop :=
  ∀ (s : State) (b : Byte) (rest : List Turn), s.turns = .spiCompletes b :: rest →
    step s = .next (
      if s.spiPending = true ∨ (s.spcr[6] = true ∧ s.spcr[4] = false) then
        { s with turns := rest, spdrRx := b, spdrRxFilled := true, spsr := s.spsr ||| 0x80, spiPending := false }
      else { s with turns := rest })

/-- 20 R50, R51: the TWI completion step and the stop-settle step, when they are enabled; when they are not, their
turns change nothing (the latter is the model's choice, log 1). -/
def Obligations.TwiPeripheralSteps : Prop :=
  ∀ (s : State) (st : BitVec 5) (b : Byte) (rest : List Turn),
    (s.turns = .twiCompletes st b :: rest →
      step s = .next (
        if s.twiPending = .none then { s with turns := rest }
        else { s with
          turns := rest, twsr := BitVec.ofNat 8 (8 * st.toNat) ||| (s.twsr &&& 0x07),
          twdr := if s.twiPending = .byteAction then b else s.twdr,
          twcr := s.twcr ||| 0x80, twiPending := .none })) ∧
    (s.turns = .stopSettles st :: rest →
      step s = .next (
        if s.twcr[4] = true ∧ s.twiPending = .none then
          { s with turns := rest, twcr := s.twcr &&& 0xEF, twsr := BitVec.ofNat 8 (8 * st.toNat) ||| (s.twsr &&& 0x07) }
        else { s with turns := rest }))

/-- 20 R52: the host writes `CMD` in `Ready` and cannot write it in any other phase. That its turn then changes
nothing is the model's choice (log 1). -/
def Obligations.HostWritesCommandOnlyWhenReady : Prop :=
  ∀ (s : State) (w : Word) (rest : List Turn), s.turns = .host w :: rest →
    step s = .next { s with turns := rest, cmd := if s.phase = .ready then some w else s.cmd }

/-- 20 R53: a held block has no step: its turn changes nothing. That a turn without a step changes nothing is the
model's choice (log 1). -/
def Obligations.HeldBlockHasNoStep : Prop :=
  ∀ (s : State) (rest : List Turn), s.held = true → s.turns = .block :: rest →
    step s = .next { s with turns := rest }

/-- 10 R16, 20 R49 to R52: no step but the block's and reset's changes a register of the block other than `CMD`. -/
def Obligations.OnlyTheBlockMovesItsRegisters : Prop :=
  ∀ s t : State, s.nextTurn ≠ .block → s.nextTurn ≠ .reset → step s = .next t → SameBlock s t

/-- 10 R18, R19: a step that is not reset either writes no result and leaves `CI`, or writes the result, adds one to
`CI` and returns to `Ready`, with value 0x00 on an error. That `CMD` is left empty is the model's reading (log 9). -/
def Obligations.ResultsComeWithCompletion : Prop :=
  ∀ s t : State, s.nextTurn ≠ .reset → step s = .next t →
    (t.ci = s.ci ∧ t.resultCode = s.resultCode ∧ t.resultValue = s.resultValue) ∨
    (t.ci = s.ci + 1 ∧ t.phase = .ready ∧ t.cmd = none ∧ (t.resultCode ≠ 0x00 → t.resultValue = 0x00))

/-- 60 R118: a command that completes with an error changes nothing but the result, `CI`, the phase and `CMD`. That
`CMD` is left empty is the model's reading (log 9). -/
def Obligations.ErrorsChangeNothingElse : Prop :=
  ∀ (i : Instr) (s t : State), exec i s = .next t → t.ci ≠ s.ci → t.resultCode ≠ 0x00 →
    t = { s with
      cmd := none, phase := .ready, ci := s.ci + 1, resultCode := t.resultCode, resultValue := 0x00 }

/-- The commands of one peripheral leave the registers of the other as they are (40 to 44; 10 R16). -/
def Obligations.CommandsKeepToTheirPeripheral : Prop :=
  ∀ (i : Instr) (s t : State), exec i s = .next t →
    (isSpi i = true → SameTwi s t) ∧ (isSpi i = false → SameSpi s t)

/-- 60 R121, 70 R134: no step but reset changes a register of a faulted block, whatever the environment does. -/
def Obligations.FaultIsStickyUntilReset : Prop :=
  ∀ s t : State, s.phase = .faulted → s.nextTurn ≠ .reset → step s = .next t →
    SameBlock s t ∧ t.cmd = s.cmd

/-- 70 R133, 10 R33, R34: reset, in any state and phase, sets every register to its reset value under the state's
parameters. The value of `SPDR_RX` is the model's (log 6). Reserved bits 0 under every `PERIPH_RESET` (log 5) and what
reset keeps (log 20) are the model's too. -/
def Obligations.ResetRestoresEveryRegister : Prop :=
  ∀ (s : State) (rest : List Turn), s.turns = .reset :: rest →
    step s = .next
      { params := s.params, cmd := none, phase := .ready, bus := .idle, fault := none, faultCmd := 0x00000000,
        resultCode := 0x00, resultValue := 0x00, ci := 0, cs := s.params.csLines.map fun l => (l, .undriven),
        events := [], spcr := s.params.periphReset.spcr, spsr := s.params.periphReset.spsr &&& 0x01,
        spdrTx := s.params.periphReset.spdrTx, spdrRx := s.params.periphReset.spdrRx, spdrRxFilled := false,
        twcr := s.params.periphReset.twcr &&& 0x6D, twsr := s.params.periphReset.twsr &&& 0xFB,
        twbr := s.params.periphReset.twbr, twar := s.params.periphReset.twar, twdr := s.params.periphReset.twdr,
        spiPending := false, twiPending := .none, turns := rest, draws := s.draws }

/-- 10 R33, R34, 70 R135: the state after reset holds the spec's values, with the default `PERIPH_RESET` (general knowledge
by the spec's own mark, log 5) and the default `CS_LINES` = {0} of 00 R7 (the model's choice for an open parameter, log 4:
that line 0 exists rests on it), and neither peripheral requests an interrupt. -/
def Obligations.ResetStateHoldsSpecValues : Prop :=
  State.reset.phase = .ready ∧ State.reset.bus = .idle ∧ State.reset.fault = none ∧
  State.reset.faultCmd = 0x00000000 ∧ State.reset.resultCode = 0x00 ∧ State.reset.resultValue = 0x00 ∧
  State.reset.ci = 0 ∧ State.reset.csLevel 0 = some .undriven ∧ State.reset.events = [] ∧ State.reset.cmd = none ∧
  State.reset.spcr = 0x00 ∧ State.reset.spsr = 0x00 ∧ State.reset.twcr = 0x00 ∧ State.reset.twsr = 0xF8 ∧
  State.reset.twbr = 0x00 ∧ State.reset.twar = 0xFE ∧ State.reset.twdr = 0xFF ∧
  State.reset.spiPending = false ∧ State.reset.twiPending = .none ∧
  State.reset.spiRequest = false ∧ State.reset.twiRequest = false

/-! ### Invariants every step keeps -/

/-- The invariants hold after reset, under any parameters whose `TWCR` value does not enable the TWI interrupt. That the
reserved bits (10 R24, R26, R27) are 0 under every `PERIPH_RESET`, whatever its bytes hold there, is the model's deduction
(log 5). -/
def Obligations.ResetMeetsInvariants : Prop :=
  ∀ (p : Params) (turns : List Turn) (draws : Nat), p.periphReset.twcr[0] = false →
    let s := State.afterReset p turns draws
    ReservedBitsClear s ∧ CommandRecord s ∧ TwiHandshake s ∧ SpiHandshake s ∧ CsRecord s ∧ TwiInterruptOff s

/-- 10 R24, R26, R27: the reserved bits of `SPSR`, `TWCR` and `TWSR` stay 0 in every step. -/
def Obligations.StepKeepsReservedBitsClear : Prop :=
  ∀ s t : State, ReservedBitsClear s → step s = .next t → ReservedBitsClear t

/-- 10 R15, R17, 60 R120: a command is in progress in every wait phase, and the fault registers record a fault exactly
while the block is faulted, with the command that raised it. That `CMD` stays set during a command and after a fault
is the model's reading (log 9). -/
def Obligations.StepKeepsCommandRecord : Prop :=
  ∀ s t : State, CommandRecord s → step s = .next t → CommandRecord t

/-- 43 R99: while a transaction is open and the block is ready, `TWINT` = 1, with what makes this inductive. -/
def Obligations.StepKeepsTwiHandshake : Prop :=
  ∀ s t : State, TwiHandshake s → step s = .next t → TwiHandshake t

/-- 20 R41: `SPIF` = 1 only once `SPDR_RX` holds a value, so that no command reads it before. -/
def Obligations.StepKeepsSpiHandshake : Prop :=
  ∀ s t : State, SpiHandshake s → step s = .next t → SpiHandshake t

/-- 10 R14, R21, 00 R7: the parameters never change, `CS` keeps one entry for each line of `CS_LINES`, and `EVENTS` is
append-only: a step that is not reset appends at most one event. -/
def Obligations.StepKeepsParametersLinesAndEvents : Prop :=
  ∀ s t : State, step s = .next t →
    t.params = s.params ∧ (CsRecord s → CsRecord t) ∧
    (s.nextTurn ≠ .reset → t.events = s.events ∨ t.events = s.events ++ [.spiMasterPinDir])

/-- 43 R98, 60 R126: `TWIE` stays 0, so the TWI peripheral never requests an interrupt. -/
def Obligations.StepKeepsTwiInterruptOff : Prop :=
  ∀ s t : State, s.params.periphReset.twcr[0] = false → TwiInterruptOff s → step s = .next t →
    TwiInterruptOff t ∧ t.twiRequest = false

/-- No step of the machine ends in a host-level fault or refusal: there is always a next state (60 R120, R121, R125).
That the block's faults are next states is the model's reading (log 13). -/
def Obligations.StepAlwaysAnswersNextState : Prop :=
  ∀ s : State, ∃ t, step s = .next t

end
end

