-- ==== Sys2Proof/Laws/Encode.lean ====
section
/-! SUPPORT. The bits and the fields of a command word (spec 30 R58), for proofs about encoding and decoding. -/

namespace Sys2Proof

/-- Bit `i` of a command word, field by field (30 R58). -/
theorem commandWord_getLsbD (f4 f3 f2 f1 f0 : Bool) (b a op : Byte) (i : Nat) :
    (commandWord f4 f3 f2 f1 f0 b a op).getLsbD i =
      if i < 8 then op.getLsbD i else if i < 16 then a.getLsbD (i - 8) else if i < 24 then b.getLsbD (i - 16)
      else if i = 24 then f0 else if i = 25 then f1 else if i = 26 then f2 else if i = 27 then f3
      else if i = 28 then f4 else false := by
  simp only [commandWord, BitVec.getLsbD_append, BitVec.getLsbD_ofBool]
  by_cases h1 : i < 8
  · simp [h1]
  by_cases h2 : i < 16
  · have : i - 8 < 8 := by omega
    simp [h1, h2, this]
  by_cases h3 : i < 24
  · have h4 : ¬ i - 8 < 8 := by omega
    have h5 : i - 16 < 8 := by omega
    have h6 : i - 8 - 8 = i - 16 := by omega
    simp [h1, h2, h3, h4, h5, h6]
  obtain ⟨j, rfl⟩ : ∃ j, i = j + 24 := ⟨i - 24, by omega⟩
  have h4 : ¬ j + 24 - 8 < 8 := by omega
  have h5 : ¬ j + 24 - 8 - 8 < 8 := by omega
  have h6 : j + 24 - 8 - 8 - 8 = j := by omega
  simp only [h1, h2, h3, h4, h5, h6, if_false]
  rcases j with _ | _ | _ | _ | _ | j <;> simp

/-- A number below `2 ^ k` has no bit from `k` on. -/
theorem ofNat_getLsbD_of_lt {n k i : Nat} (hn : n < 2 ^ k) (hi : k ≤ i) : (BitVec.ofNat 8 n).getLsbD i = false := by
  have : n < 2 ^ i := Nat.lt_of_lt_of_le hn (Nat.pow_le_pow_right (by decide) hi)
  rw [BitVec.getLsbD_ofNat, Nat.testBit_lt_two_pow this, Bool.and_false]

@[simp] theorem opField_commandWord (f4 f3 f2 f1 f0 : Bool) (b a op : Byte) :
    opField (commandWord f4 f3 f2 f1 f0 b a op) = op := by
  apply BitVec.eq_of_getLsbD_eq
  intro i hi
  simp [opField, commandWord_getLsbD, hi]

@[simp] theorem aField_commandWord (f4 f3 f2 f1 f0 : Bool) (b a op : Byte) :
    aField (commandWord f4 f3 f2 f1 f0 b a op) = a := by
  apply BitVec.eq_of_getLsbD_eq
  intro i hi
  have h1 : ¬ 8 + i < 8 := by omega
  have h2 : 8 + i < 16 := by omega
  simp [aField, commandWord_getLsbD, hi, h2]

@[simp] theorem bField_commandWord (f4 f3 f2 f1 f0 : Bool) (b a op : Byte) :
    bField (commandWord f4 f3 f2 f1 f0 b a op) = b := by
  apply BitVec.eq_of_getLsbD_eq
  intro i hi
  have h1 : ¬ 16 + i < 8 := by omega
  have h2 : ¬ 16 + i < 16 := by omega
  have h3 : 16 + i < 24 := by omega
  simp [bField, commandWord_getLsbD, hi, h1, h3]

@[simp] theorem flagField_commandWord (f4 f3 f2 f1 f0 : Bool) (b a op : Byte) :
    flagField (commandWord f4 f3 f2 f1 f0 b a op) 0 = f0 ∧ flagField (commandWord f4 f3 f2 f1 f0 b a op) 1 = f1 ∧
    flagField (commandWord f4 f3 f2 f1 f0 b a op) 2 = f2 ∧ flagField (commandWord f4 f3 f2 f1 f0 b a op) 3 = f3 ∧
    flagField (commandWord f4 f3 f2 f1 f0 b a op) 4 = f4 := by
  refine ⟨?_, ?_, ?_, ?_, ?_⟩ <;> (unfold flagField; rw [commandWord_getLsbD]; rfl)

/-- Two words are equal if their fields are (30 R58). -/
theorem commandWord_fields (w : Word) (h : w.extractLsb' 29 3 = 0) :
    w = commandWord (flagField w 4) (flagField w 3) (flagField w 2) (flagField w 1) (flagField w 0) (bField w)
      (aField w) (opField w) := by
  apply BitVec.eq_of_getLsbD_eq
  intro i hi
  have hr : ∀ j, j < 3 → w.getLsbD (29 + j) = false := by
    intro j hj
    have := congrArg (fun v => v.getLsbD j) h
    simpa [hj] using this
  rw [commandWord_getLsbD]
  by_cases h1 : i < 8
  · simp [h1, opField]
  by_cases h2 : i < 16
  · have : i - 8 < 8 := by omega
    have h4 : 8 + (i - 8) = i := by omega
    simp [h1, h2, aField, this, h4]
  by_cases h3 : i < 24
  · have : i - 16 < 8 := by omega
    have h4 : 16 + (i - 16) = i := by omega
    simp [h1, h2, h3, bField, this, h4]
  obtain ⟨j, rfl⟩ : ∃ j, i = j + 24 := ⟨i - 24, by omega⟩
  rcases j with _ | _ | _ | _ | _ | j
  case succ.succ.succ.succ.succ =>
    have := hr j (by omega)
    have h4 : 29 + j = j + 1 + 1 + 1 + 1 + 1 + 24 := by omega
    rw [h4] at this
    simp [this]
  all_goals simp [flagField]

end Sys2Proof
end

