-- ==== Sys2Proof/Laws/State.lean ====
section
/-! SUPPORT. One lemma per field per update of the state, true by `rfl`, so that no proof unfolds a record update; and,
for an operation with cases, one lemma per field it never changes. -/

namespace Sys2Proof.Machine

/-! `State.spdrReadEffect` -/

@[simp] theorem spdrReadEffect_params (s : State) : s.spdrReadEffect.params = s.params := rfl
@[simp] theorem spdrReadEffect_cmd (s : State) : s.spdrReadEffect.cmd = s.cmd := rfl
@[simp] theorem spdrReadEffect_phase (s : State) : s.spdrReadEffect.phase = s.phase := rfl
@[simp] theorem spdrReadEffect_bus (s : State) : s.spdrReadEffect.bus = s.bus := rfl
@[simp] theorem spdrReadEffect_fault (s : State) : s.spdrReadEffect.fault = s.fault := rfl
@[simp] theorem spdrReadEffect_faultCmd (s : State) : s.spdrReadEffect.faultCmd = s.faultCmd := rfl
@[simp] theorem spdrReadEffect_resultCode (s : State) : s.spdrReadEffect.resultCode = s.resultCode := rfl
@[simp] theorem spdrReadEffect_resultValue (s : State) : s.spdrReadEffect.resultValue = s.resultValue := rfl
@[simp] theorem spdrReadEffect_ci (s : State) : s.spdrReadEffect.ci = s.ci := rfl
@[simp] theorem spdrReadEffect_cs (s : State) : s.spdrReadEffect.cs = s.cs := rfl
@[simp] theorem spdrReadEffect_events (s : State) : s.spdrReadEffect.events = s.events := rfl
@[simp] theorem spdrReadEffect_spcr (s : State) : s.spdrReadEffect.spcr = s.spcr := rfl
@[simp] theorem spdrReadEffect_spsr (s : State) : s.spdrReadEffect.spsr = spsrDataRead s.spsr := rfl
@[simp] theorem spdrReadEffect_spdrTx (s : State) : s.spdrReadEffect.spdrTx = s.spdrTx := rfl
@[simp] theorem spdrReadEffect_spdrRx (s : State) : s.spdrReadEffect.spdrRx = s.spdrRx := rfl
@[simp] theorem spdrReadEffect_spdrRxFilled (s : State) : s.spdrReadEffect.spdrRxFilled = s.spdrRxFilled := rfl
@[simp] theorem spdrReadEffect_twcr (s : State) : s.spdrReadEffect.twcr = s.twcr := rfl
@[simp] theorem spdrReadEffect_twsr (s : State) : s.spdrReadEffect.twsr = s.twsr := rfl
@[simp] theorem spdrReadEffect_twbr (s : State) : s.spdrReadEffect.twbr = s.twbr := rfl
@[simp] theorem spdrReadEffect_twar (s : State) : s.spdrReadEffect.twar = s.twar := rfl
@[simp] theorem spdrReadEffect_twdr (s : State) : s.spdrReadEffect.twdr = s.twdr := rfl
@[simp] theorem spdrReadEffect_spiPending (s : State) : s.spdrReadEffect.spiPending = s.spiPending := rfl
@[simp] theorem spdrReadEffect_twiPending (s : State) : s.spdrReadEffect.twiPending = s.twiPending := rfl
@[simp] theorem spdrReadEffect_turns (s : State) : s.spdrReadEffect.turns = s.turns := rfl
@[simp] theorem spdrReadEffect_draws (s : State) : s.spdrReadEffect.draws = s.draws := rfl

/-! `State.freeByteTaken` -/

@[simp] theorem freeByteTaken_params (s : State) : s.freeByteTaken.params = s.params := rfl
@[simp] theorem freeByteTaken_cmd (s : State) : s.freeByteTaken.cmd = s.cmd := rfl
@[simp] theorem freeByteTaken_phase (s : State) : s.freeByteTaken.phase = s.phase := rfl
@[simp] theorem freeByteTaken_bus (s : State) : s.freeByteTaken.bus = s.bus := rfl
@[simp] theorem freeByteTaken_fault (s : State) : s.freeByteTaken.fault = s.fault := rfl
@[simp] theorem freeByteTaken_faultCmd (s : State) : s.freeByteTaken.faultCmd = s.faultCmd := rfl
@[simp] theorem freeByteTaken_resultCode (s : State) : s.freeByteTaken.resultCode = s.resultCode := rfl
@[simp] theorem freeByteTaken_resultValue (s : State) : s.freeByteTaken.resultValue = s.resultValue := rfl
@[simp] theorem freeByteTaken_ci (s : State) : s.freeByteTaken.ci = s.ci := rfl
@[simp] theorem freeByteTaken_cs (s : State) : s.freeByteTaken.cs = s.cs := rfl
@[simp] theorem freeByteTaken_events (s : State) : s.freeByteTaken.events = s.events := rfl
@[simp] theorem freeByteTaken_spcr (s : State) : s.freeByteTaken.spcr = s.spcr := rfl
@[simp] theorem freeByteTaken_spsr (s : State) : s.freeByteTaken.spsr = s.spsr := rfl
@[simp] theorem freeByteTaken_spdrTx (s : State) : s.freeByteTaken.spdrTx = s.spdrTx := rfl
@[simp] theorem freeByteTaken_spdrRx (s : State) : s.freeByteTaken.spdrRx = s.spdrRx := rfl
@[simp] theorem freeByteTaken_spdrRxFilled (s : State) : s.freeByteTaken.spdrRxFilled = s.spdrRxFilled := rfl
@[simp] theorem freeByteTaken_twcr (s : State) : s.freeByteTaken.twcr = s.twcr := rfl
@[simp] theorem freeByteTaken_twsr (s : State) : s.freeByteTaken.twsr = s.twsr := rfl
@[simp] theorem freeByteTaken_twbr (s : State) : s.freeByteTaken.twbr = s.twbr := rfl
@[simp] theorem freeByteTaken_twar (s : State) : s.freeByteTaken.twar = s.twar := rfl
@[simp] theorem freeByteTaken_twdr (s : State) : s.freeByteTaken.twdr = s.twdr := rfl
@[simp] theorem freeByteTaken_spiPending (s : State) : s.freeByteTaken.spiPending = s.spiPending := rfl
@[simp] theorem freeByteTaken_twiPending (s : State) : s.freeByteTaken.twiPending = s.twiPending := rfl
@[simp] theorem freeByteTaken_turns (s : State) : s.freeByteTaken.turns = s.turns := rfl
@[simp] theorem freeByteTaken_draws (s : State) : s.freeByteTaken.draws = s.draws + 1 := rfl

/-! `writeTwcr` -/

@[simp] theorem writeTwcr_params (v : Byte) (s : State) : (writeTwcr v s).params = s.params := rfl
@[simp] theorem writeTwcr_cmd (v : Byte) (s : State) : (writeTwcr v s).cmd = s.cmd := rfl
@[simp] theorem writeTwcr_phase (v : Byte) (s : State) : (writeTwcr v s).phase = s.phase := rfl
@[simp] theorem writeTwcr_bus (v : Byte) (s : State) : (writeTwcr v s).bus = s.bus := rfl
@[simp] theorem writeTwcr_fault (v : Byte) (s : State) : (writeTwcr v s).fault = s.fault := rfl
@[simp] theorem writeTwcr_faultCmd (v : Byte) (s : State) : (writeTwcr v s).faultCmd = s.faultCmd := rfl
@[simp] theorem writeTwcr_resultCode (v : Byte) (s : State) : (writeTwcr v s).resultCode = s.resultCode := rfl
@[simp] theorem writeTwcr_resultValue (v : Byte) (s : State) : (writeTwcr v s).resultValue = s.resultValue := rfl
@[simp] theorem writeTwcr_ci (v : Byte) (s : State) : (writeTwcr v s).ci = s.ci := rfl
@[simp] theorem writeTwcr_cs (v : Byte) (s : State) : (writeTwcr v s).cs = s.cs := rfl
@[simp] theorem writeTwcr_events (v : Byte) (s : State) : (writeTwcr v s).events = s.events := rfl
@[simp] theorem writeTwcr_spcr (v : Byte) (s : State) : (writeTwcr v s).spcr = s.spcr := rfl
@[simp] theorem writeTwcr_spsr (v : Byte) (s : State) : (writeTwcr v s).spsr = s.spsr := rfl
@[simp] theorem writeTwcr_spdrTx (v : Byte) (s : State) : (writeTwcr v s).spdrTx = s.spdrTx := rfl
@[simp] theorem writeTwcr_spdrRx (v : Byte) (s : State) : (writeTwcr v s).spdrRx = s.spdrRx := rfl
@[simp] theorem writeTwcr_spdrRxFilled (v : Byte) (s : State) : (writeTwcr v s).spdrRxFilled = s.spdrRxFilled := rfl
@[simp] theorem writeTwcr_twcr (v : Byte) (s : State) : (writeTwcr v s).twcr = twcrWritten s.twcr v := rfl
@[simp] theorem writeTwcr_twsr (v : Byte) (s : State) : (writeTwcr v s).twsr = s.twsr := rfl
@[simp] theorem writeTwcr_twbr (v : Byte) (s : State) : (writeTwcr v s).twbr = s.twbr := rfl
@[simp] theorem writeTwcr_twar (v : Byte) (s : State) : (writeTwcr v s).twar = s.twar := rfl
@[simp] theorem writeTwcr_twdr (v : Byte) (s : State) : (writeTwcr v s).twdr = s.twdr := rfl
@[simp] theorem writeTwcr_spiPending (v : Byte) (s : State) : (writeTwcr v s).spiPending = s.spiPending := rfl
@[simp] theorem writeTwcr_twiPending (v : Byte) (s : State) : (writeTwcr v s).twiPending = twiTriggered s.twiPending v := rfl
@[simp] theorem writeTwcr_turns (v : Byte) (s : State) : (writeTwcr v s).turns = s.turns := rfl
@[simp] theorem writeTwcr_draws (v : Byte) (s : State) : (writeTwcr v s).draws = s.draws := rfl

/-! `driveCs` -/

@[simp] theorem driveCs_params (l : Nat) (level : CsLevel) (s : State) : (driveCs l level s).params = s.params := rfl
@[simp] theorem driveCs_cmd (l : Nat) (level : CsLevel) (s : State) : (driveCs l level s).cmd = s.cmd := rfl
@[simp] theorem driveCs_phase (l : Nat) (level : CsLevel) (s : State) : (driveCs l level s).phase = s.phase := rfl
@[simp] theorem driveCs_bus (l : Nat) (level : CsLevel) (s : State) : (driveCs l level s).bus = s.bus := rfl
@[simp] theorem driveCs_fault (l : Nat) (level : CsLevel) (s : State) : (driveCs l level s).fault = s.fault := rfl
@[simp] theorem driveCs_faultCmd (l : Nat) (level : CsLevel) (s : State) : (driveCs l level s).faultCmd = s.faultCmd := rfl
@[simp] theorem driveCs_resultCode (l : Nat) (level : CsLevel) (s : State) : (driveCs l level s).resultCode = s.resultCode := rfl
@[simp] theorem driveCs_resultValue (l : Nat) (level : CsLevel) (s : State) : (driveCs l level s).resultValue = s.resultValue := rfl
@[simp] theorem driveCs_ci (l : Nat) (level : CsLevel) (s : State) : (driveCs l level s).ci = s.ci := rfl
@[simp] theorem driveCs_cs (l : Nat) (level : CsLevel) (s : State) : (driveCs l level s).cs = csDriven s.cs l level := rfl
@[simp] theorem driveCs_events (l : Nat) (level : CsLevel) (s : State) : (driveCs l level s).events = s.events := rfl
@[simp] theorem driveCs_spcr (l : Nat) (level : CsLevel) (s : State) : (driveCs l level s).spcr = s.spcr := rfl
@[simp] theorem driveCs_spsr (l : Nat) (level : CsLevel) (s : State) : (driveCs l level s).spsr = s.spsr := rfl
@[simp] theorem driveCs_spdrTx (l : Nat) (level : CsLevel) (s : State) : (driveCs l level s).spdrTx = s.spdrTx := rfl
@[simp] theorem driveCs_spdrRx (l : Nat) (level : CsLevel) (s : State) : (driveCs l level s).spdrRx = s.spdrRx := rfl
@[simp] theorem driveCs_spdrRxFilled (l : Nat) (level : CsLevel) (s : State) : (driveCs l level s).spdrRxFilled = s.spdrRxFilled := rfl
@[simp] theorem driveCs_twcr (l : Nat) (level : CsLevel) (s : State) : (driveCs l level s).twcr = s.twcr := rfl
@[simp] theorem driveCs_twsr (l : Nat) (level : CsLevel) (s : State) : (driveCs l level s).twsr = s.twsr := rfl
@[simp] theorem driveCs_twbr (l : Nat) (level : CsLevel) (s : State) : (driveCs l level s).twbr = s.twbr := rfl
@[simp] theorem driveCs_twar (l : Nat) (level : CsLevel) (s : State) : (driveCs l level s).twar = s.twar := rfl
@[simp] theorem driveCs_twdr (l : Nat) (level : CsLevel) (s : State) : (driveCs l level s).twdr = s.twdr := rfl
@[simp] theorem driveCs_spiPending (l : Nat) (level : CsLevel) (s : State) : (driveCs l level s).spiPending = s.spiPending := rfl
@[simp] theorem driveCs_twiPending (l : Nat) (level : CsLevel) (s : State) : (driveCs l level s).twiPending = s.twiPending := rfl
@[simp] theorem driveCs_turns (l : Nat) (level : CsLevel) (s : State) : (driveCs l level s).turns = s.turns := rfl
@[simp] theorem driveCs_draws (l : Nat) (level : CsLevel) (s : State) : (driveCs l level s).draws = s.draws := rfl

/-! `emitEvent` -/

@[simp] theorem emitEvent_params (e : Event) (s : State) : (emitEvent e s).params = s.params := rfl
@[simp] theorem emitEvent_cmd (e : Event) (s : State) : (emitEvent e s).cmd = s.cmd := rfl
@[simp] theorem emitEvent_phase (e : Event) (s : State) : (emitEvent e s).phase = s.phase := rfl
@[simp] theorem emitEvent_bus (e : Event) (s : State) : (emitEvent e s).bus = s.bus := rfl
@[simp] theorem emitEvent_fault (e : Event) (s : State) : (emitEvent e s).fault = s.fault := rfl
@[simp] theorem emitEvent_faultCmd (e : Event) (s : State) : (emitEvent e s).faultCmd = s.faultCmd := rfl
@[simp] theorem emitEvent_resultCode (e : Event) (s : State) : (emitEvent e s).resultCode = s.resultCode := rfl
@[simp] theorem emitEvent_resultValue (e : Event) (s : State) : (emitEvent e s).resultValue = s.resultValue := rfl
@[simp] theorem emitEvent_ci (e : Event) (s : State) : (emitEvent e s).ci = s.ci := rfl
@[simp] theorem emitEvent_cs (e : Event) (s : State) : (emitEvent e s).cs = s.cs := rfl
@[simp] theorem emitEvent_events (e : Event) (s : State) : (emitEvent e s).events = s.events ++ [e] := rfl
@[simp] theorem emitEvent_spcr (e : Event) (s : State) : (emitEvent e s).spcr = s.spcr := rfl
@[simp] theorem emitEvent_spsr (e : Event) (s : State) : (emitEvent e s).spsr = s.spsr := rfl
@[simp] theorem emitEvent_spdrTx (e : Event) (s : State) : (emitEvent e s).spdrTx = s.spdrTx := rfl
@[simp] theorem emitEvent_spdrRx (e : Event) (s : State) : (emitEvent e s).spdrRx = s.spdrRx := rfl
@[simp] theorem emitEvent_spdrRxFilled (e : Event) (s : State) : (emitEvent e s).spdrRxFilled = s.spdrRxFilled := rfl
@[simp] theorem emitEvent_twcr (e : Event) (s : State) : (emitEvent e s).twcr = s.twcr := rfl
@[simp] theorem emitEvent_twsr (e : Event) (s : State) : (emitEvent e s).twsr = s.twsr := rfl
@[simp] theorem emitEvent_twbr (e : Event) (s : State) : (emitEvent e s).twbr = s.twbr := rfl
@[simp] theorem emitEvent_twar (e : Event) (s : State) : (emitEvent e s).twar = s.twar := rfl
@[simp] theorem emitEvent_twdr (e : Event) (s : State) : (emitEvent e s).twdr = s.twdr := rfl
@[simp] theorem emitEvent_spiPending (e : Event) (s : State) : (emitEvent e s).spiPending = s.spiPending := rfl
@[simp] theorem emitEvent_twiPending (e : Event) (s : State) : (emitEvent e s).twiPending = s.twiPending := rfl
@[simp] theorem emitEvent_turns (e : Event) (s : State) : (emitEvent e s).turns = s.turns := rfl
@[simp] theorem emitEvent_draws (e : Event) (s : State) : (emitEvent e s).draws = s.draws := rfl

/-! `enterPhase` -/

@[simp] theorem enterPhase_params (p : Phase) (s : State) : (enterPhase p s).params = s.params := rfl
@[simp] theorem enterPhase_cmd (p : Phase) (s : State) : (enterPhase p s).cmd = s.cmd := rfl
@[simp] theorem enterPhase_phase (p : Phase) (s : State) : (enterPhase p s).phase = p := rfl
@[simp] theorem enterPhase_bus (p : Phase) (s : State) : (enterPhase p s).bus = s.bus := rfl
@[simp] theorem enterPhase_fault (p : Phase) (s : State) : (enterPhase p s).fault = s.fault := rfl
@[simp] theorem enterPhase_faultCmd (p : Phase) (s : State) : (enterPhase p s).faultCmd = s.faultCmd := rfl
@[simp] theorem enterPhase_resultCode (p : Phase) (s : State) : (enterPhase p s).resultCode = s.resultCode := rfl
@[simp] theorem enterPhase_resultValue (p : Phase) (s : State) : (enterPhase p s).resultValue = s.resultValue := rfl
@[simp] theorem enterPhase_ci (p : Phase) (s : State) : (enterPhase p s).ci = s.ci := rfl
@[simp] theorem enterPhase_cs (p : Phase) (s : State) : (enterPhase p s).cs = s.cs := rfl
@[simp] theorem enterPhase_events (p : Phase) (s : State) : (enterPhase p s).events = s.events := rfl
@[simp] theorem enterPhase_spcr (p : Phase) (s : State) : (enterPhase p s).spcr = s.spcr := rfl
@[simp] theorem enterPhase_spsr (p : Phase) (s : State) : (enterPhase p s).spsr = s.spsr := rfl
@[simp] theorem enterPhase_spdrTx (p : Phase) (s : State) : (enterPhase p s).spdrTx = s.spdrTx := rfl
@[simp] theorem enterPhase_spdrRx (p : Phase) (s : State) : (enterPhase p s).spdrRx = s.spdrRx := rfl
@[simp] theorem enterPhase_spdrRxFilled (p : Phase) (s : State) : (enterPhase p s).spdrRxFilled = s.spdrRxFilled := rfl
@[simp] theorem enterPhase_twcr (p : Phase) (s : State) : (enterPhase p s).twcr = s.twcr := rfl
@[simp] theorem enterPhase_twsr (p : Phase) (s : State) : (enterPhase p s).twsr = s.twsr := rfl
@[simp] theorem enterPhase_twbr (p : Phase) (s : State) : (enterPhase p s).twbr = s.twbr := rfl
@[simp] theorem enterPhase_twar (p : Phase) (s : State) : (enterPhase p s).twar = s.twar := rfl
@[simp] theorem enterPhase_twdr (p : Phase) (s : State) : (enterPhase p s).twdr = s.twdr := rfl
@[simp] theorem enterPhase_spiPending (p : Phase) (s : State) : (enterPhase p s).spiPending = s.spiPending := rfl
@[simp] theorem enterPhase_twiPending (p : Phase) (s : State) : (enterPhase p s).twiPending = s.twiPending := rfl
@[simp] theorem enterPhase_turns (p : Phase) (s : State) : (enterPhase p s).turns = s.turns := rfl
@[simp] theorem enterPhase_draws (p : Phase) (s : State) : (enterPhase p s).draws = s.draws := rfl

/-! `setBus` -/

@[simp] theorem setBus_params (b : BusState) (s : State) : (setBus b s).params = s.params := rfl
@[simp] theorem setBus_cmd (b : BusState) (s : State) : (setBus b s).cmd = s.cmd := rfl
@[simp] theorem setBus_phase (b : BusState) (s : State) : (setBus b s).phase = s.phase := rfl
@[simp] theorem setBus_bus (b : BusState) (s : State) : (setBus b s).bus = b := rfl
@[simp] theorem setBus_fault (b : BusState) (s : State) : (setBus b s).fault = s.fault := rfl
@[simp] theorem setBus_faultCmd (b : BusState) (s : State) : (setBus b s).faultCmd = s.faultCmd := rfl
@[simp] theorem setBus_resultCode (b : BusState) (s : State) : (setBus b s).resultCode = s.resultCode := rfl
@[simp] theorem setBus_resultValue (b : BusState) (s : State) : (setBus b s).resultValue = s.resultValue := rfl
@[simp] theorem setBus_ci (b : BusState) (s : State) : (setBus b s).ci = s.ci := rfl
@[simp] theorem setBus_cs (b : BusState) (s : State) : (setBus b s).cs = s.cs := rfl
@[simp] theorem setBus_events (b : BusState) (s : State) : (setBus b s).events = s.events := rfl
@[simp] theorem setBus_spcr (b : BusState) (s : State) : (setBus b s).spcr = s.spcr := rfl
@[simp] theorem setBus_spsr (b : BusState) (s : State) : (setBus b s).spsr = s.spsr := rfl
@[simp] theorem setBus_spdrTx (b : BusState) (s : State) : (setBus b s).spdrTx = s.spdrTx := rfl
@[simp] theorem setBus_spdrRx (b : BusState) (s : State) : (setBus b s).spdrRx = s.spdrRx := rfl
@[simp] theorem setBus_spdrRxFilled (b : BusState) (s : State) : (setBus b s).spdrRxFilled = s.spdrRxFilled := rfl
@[simp] theorem setBus_twcr (b : BusState) (s : State) : (setBus b s).twcr = s.twcr := rfl
@[simp] theorem setBus_twsr (b : BusState) (s : State) : (setBus b s).twsr = s.twsr := rfl
@[simp] theorem setBus_twbr (b : BusState) (s : State) : (setBus b s).twbr = s.twbr := rfl
@[simp] theorem setBus_twar (b : BusState) (s : State) : (setBus b s).twar = s.twar := rfl
@[simp] theorem setBus_twdr (b : BusState) (s : State) : (setBus b s).twdr = s.twdr := rfl
@[simp] theorem setBus_spiPending (b : BusState) (s : State) : (setBus b s).spiPending = s.spiPending := rfl
@[simp] theorem setBus_twiPending (b : BusState) (s : State) : (setBus b s).twiPending = s.twiPending := rfl
@[simp] theorem setBus_turns (b : BusState) (s : State) : (setBus b s).turns = s.turns := rfl
@[simp] theorem setBus_draws (b : BusState) (s : State) : (setBus b s).draws = s.draws := rfl

/-! `completeCommand` -/

@[simp] theorem completeCommand_params (code value : Byte) (s : State) : (completeCommand code value s).params = s.params := rfl
@[simp] theorem completeCommand_cmd (code value : Byte) (s : State) : (completeCommand code value s).cmd = none := rfl
@[simp] theorem completeCommand_phase (code value : Byte) (s : State) : (completeCommand code value s).phase = .ready := rfl
@[simp] theorem completeCommand_bus (code value : Byte) (s : State) : (completeCommand code value s).bus = s.bus := rfl
@[simp] theorem completeCommand_fault (code value : Byte) (s : State) : (completeCommand code value s).fault = s.fault := rfl
@[simp] theorem completeCommand_faultCmd (code value : Byte) (s : State) : (completeCommand code value s).faultCmd = s.faultCmd := rfl
@[simp] theorem completeCommand_resultCode (code value : Byte) (s : State) : (completeCommand code value s).resultCode = code := rfl
@[simp] theorem completeCommand_resultValue (code value : Byte) (s : State) : (completeCommand code value s).resultValue = value := rfl
@[simp] theorem completeCommand_ci (code value : Byte) (s : State) : (completeCommand code value s).ci = s.ci + 1 := rfl
@[simp] theorem completeCommand_cs (code value : Byte) (s : State) : (completeCommand code value s).cs = s.cs := rfl
@[simp] theorem completeCommand_events (code value : Byte) (s : State) : (completeCommand code value s).events = s.events := rfl
@[simp] theorem completeCommand_spcr (code value : Byte) (s : State) : (completeCommand code value s).spcr = s.spcr := rfl
@[simp] theorem completeCommand_spsr (code value : Byte) (s : State) : (completeCommand code value s).spsr = s.spsr := rfl
@[simp] theorem completeCommand_spdrTx (code value : Byte) (s : State) : (completeCommand code value s).spdrTx = s.spdrTx := rfl
@[simp] theorem completeCommand_spdrRx (code value : Byte) (s : State) : (completeCommand code value s).spdrRx = s.spdrRx := rfl
@[simp] theorem completeCommand_spdrRxFilled (code value : Byte) (s : State) : (completeCommand code value s).spdrRxFilled = s.spdrRxFilled := rfl
@[simp] theorem completeCommand_twcr (code value : Byte) (s : State) : (completeCommand code value s).twcr = s.twcr := rfl
@[simp] theorem completeCommand_twsr (code value : Byte) (s : State) : (completeCommand code value s).twsr = s.twsr := rfl
@[simp] theorem completeCommand_twbr (code value : Byte) (s : State) : (completeCommand code value s).twbr = s.twbr := rfl
@[simp] theorem completeCommand_twar (code value : Byte) (s : State) : (completeCommand code value s).twar = s.twar := rfl
@[simp] theorem completeCommand_twdr (code value : Byte) (s : State) : (completeCommand code value s).twdr = s.twdr := rfl
@[simp] theorem completeCommand_spiPending (code value : Byte) (s : State) : (completeCommand code value s).spiPending = s.spiPending := rfl
@[simp] theorem completeCommand_twiPending (code value : Byte) (s : State) : (completeCommand code value s).twiPending = s.twiPending := rfl
@[simp] theorem completeCommand_turns (code value : Byte) (s : State) : (completeCommand code value s).turns = s.turns := rfl
@[simp] theorem completeCommand_draws (code value : Byte) (s : State) : (completeCommand code value s).draws = s.draws := rfl

/-! `returnOk` -/

@[simp] theorem returnOk_params (v : Byte) (s : State) : (returnOk v s).params = s.params := rfl
@[simp] theorem returnOk_cmd (v : Byte) (s : State) : (returnOk v s).cmd = none := rfl
@[simp] theorem returnOk_phase (v : Byte) (s : State) : (returnOk v s).phase = .ready := rfl
@[simp] theorem returnOk_bus (v : Byte) (s : State) : (returnOk v s).bus = s.bus := rfl
@[simp] theorem returnOk_fault (v : Byte) (s : State) : (returnOk v s).fault = s.fault := rfl
@[simp] theorem returnOk_faultCmd (v : Byte) (s : State) : (returnOk v s).faultCmd = s.faultCmd := rfl
@[simp] theorem returnOk_resultCode (v : Byte) (s : State) : (returnOk v s).resultCode = 0x00 := rfl
@[simp] theorem returnOk_resultValue (v : Byte) (s : State) : (returnOk v s).resultValue = v := rfl
@[simp] theorem returnOk_ci (v : Byte) (s : State) : (returnOk v s).ci = s.ci + 1 := rfl
@[simp] theorem returnOk_cs (v : Byte) (s : State) : (returnOk v s).cs = s.cs := rfl
@[simp] theorem returnOk_events (v : Byte) (s : State) : (returnOk v s).events = s.events := rfl
@[simp] theorem returnOk_spcr (v : Byte) (s : State) : (returnOk v s).spcr = s.spcr := rfl
@[simp] theorem returnOk_spsr (v : Byte) (s : State) : (returnOk v s).spsr = s.spsr := rfl
@[simp] theorem returnOk_spdrTx (v : Byte) (s : State) : (returnOk v s).spdrTx = s.spdrTx := rfl
@[simp] theorem returnOk_spdrRx (v : Byte) (s : State) : (returnOk v s).spdrRx = s.spdrRx := rfl
@[simp] theorem returnOk_spdrRxFilled (v : Byte) (s : State) : (returnOk v s).spdrRxFilled = s.spdrRxFilled := rfl
@[simp] theorem returnOk_twcr (v : Byte) (s : State) : (returnOk v s).twcr = s.twcr := rfl
@[simp] theorem returnOk_twsr (v : Byte) (s : State) : (returnOk v s).twsr = s.twsr := rfl
@[simp] theorem returnOk_twbr (v : Byte) (s : State) : (returnOk v s).twbr = s.twbr := rfl
@[simp] theorem returnOk_twar (v : Byte) (s : State) : (returnOk v s).twar = s.twar := rfl
@[simp] theorem returnOk_twdr (v : Byte) (s : State) : (returnOk v s).twdr = s.twdr := rfl
@[simp] theorem returnOk_spiPending (v : Byte) (s : State) : (returnOk v s).spiPending = s.spiPending := rfl
@[simp] theorem returnOk_twiPending (v : Byte) (s : State) : (returnOk v s).twiPending = s.twiPending := rfl
@[simp] theorem returnOk_turns (v : Byte) (s : State) : (returnOk v s).turns = s.turns := rfl
@[simp] theorem returnOk_draws (v : Byte) (s : State) : (returnOk v s).draws = s.draws := rfl

/-! `returnError` -/

@[simp] theorem returnError_params (e : ErrorCode) (s : State) : (returnError e s).params = s.params := rfl
@[simp] theorem returnError_cmd (e : ErrorCode) (s : State) : (returnError e s).cmd = none := rfl
@[simp] theorem returnError_phase (e : ErrorCode) (s : State) : (returnError e s).phase = .ready := rfl
@[simp] theorem returnError_bus (e : ErrorCode) (s : State) : (returnError e s).bus = s.bus := rfl
@[simp] theorem returnError_fault (e : ErrorCode) (s : State) : (returnError e s).fault = s.fault := rfl
@[simp] theorem returnError_faultCmd (e : ErrorCode) (s : State) : (returnError e s).faultCmd = s.faultCmd := rfl
@[simp] theorem returnError_resultCode (e : ErrorCode) (s : State) : (returnError e s).resultCode = e.code := rfl
@[simp] theorem returnError_resultValue (e : ErrorCode) (s : State) : (returnError e s).resultValue = 0x00 := rfl
@[simp] theorem returnError_ci (e : ErrorCode) (s : State) : (returnError e s).ci = s.ci + 1 := rfl
@[simp] theorem returnError_cs (e : ErrorCode) (s : State) : (returnError e s).cs = s.cs := rfl
@[simp] theorem returnError_events (e : ErrorCode) (s : State) : (returnError e s).events = s.events := rfl
@[simp] theorem returnError_spcr (e : ErrorCode) (s : State) : (returnError e s).spcr = s.spcr := rfl
@[simp] theorem returnError_spsr (e : ErrorCode) (s : State) : (returnError e s).spsr = s.spsr := rfl
@[simp] theorem returnError_spdrTx (e : ErrorCode) (s : State) : (returnError e s).spdrTx = s.spdrTx := rfl
@[simp] theorem returnError_spdrRx (e : ErrorCode) (s : State) : (returnError e s).spdrRx = s.spdrRx := rfl
@[simp] theorem returnError_spdrRxFilled (e : ErrorCode) (s : State) : (returnError e s).spdrRxFilled = s.spdrRxFilled := rfl
@[simp] theorem returnError_twcr (e : ErrorCode) (s : State) : (returnError e s).twcr = s.twcr := rfl
@[simp] theorem returnError_twsr (e : ErrorCode) (s : State) : (returnError e s).twsr = s.twsr := rfl
@[simp] theorem returnError_twbr (e : ErrorCode) (s : State) : (returnError e s).twbr = s.twbr := rfl
@[simp] theorem returnError_twar (e : ErrorCode) (s : State) : (returnError e s).twar = s.twar := rfl
@[simp] theorem returnError_twdr (e : ErrorCode) (s : State) : (returnError e s).twdr = s.twdr := rfl
@[simp] theorem returnError_spiPending (e : ErrorCode) (s : State) : (returnError e s).spiPending = s.spiPending := rfl
@[simp] theorem returnError_twiPending (e : ErrorCode) (s : State) : (returnError e s).twiPending = s.twiPending := rfl
@[simp] theorem returnError_turns (e : ErrorCode) (s : State) : (returnError e s).turns = s.turns := rfl
@[simp] theorem returnError_draws (e : ErrorCode) (s : State) : (returnError e s).draws = s.draws := rfl

/-! `raiseFault` -/

@[simp] theorem raiseFault_params (c : FaultCause) (s : State) : (raiseFault c s).params = s.params := rfl
@[simp] theorem raiseFault_cmd (c : FaultCause) (s : State) : (raiseFault c s).cmd = s.cmd := rfl
@[simp] theorem raiseFault_phase (c : FaultCause) (s : State) : (raiseFault c s).phase = .faulted := rfl
@[simp] theorem raiseFault_bus (c : FaultCause) (s : State) : (raiseFault c s).bus = s.bus := rfl
@[simp] theorem raiseFault_fault (c : FaultCause) (s : State) : (raiseFault c s).fault = some c := rfl
@[simp] theorem raiseFault_faultCmd (c : FaultCause) (s : State) : (raiseFault c s).faultCmd = s.cmd.getD 0 := rfl
@[simp] theorem raiseFault_resultCode (c : FaultCause) (s : State) : (raiseFault c s).resultCode = s.resultCode := rfl
@[simp] theorem raiseFault_resultValue (c : FaultCause) (s : State) : (raiseFault c s).resultValue = s.resultValue := rfl
@[simp] theorem raiseFault_ci (c : FaultCause) (s : State) : (raiseFault c s).ci = s.ci := rfl
@[simp] theorem raiseFault_cs (c : FaultCause) (s : State) : (raiseFault c s).cs = s.cs := rfl
@[simp] theorem raiseFault_events (c : FaultCause) (s : State) : (raiseFault c s).events = s.events := rfl
@[simp] theorem raiseFault_spcr (c : FaultCause) (s : State) : (raiseFault c s).spcr = s.spcr := rfl
@[simp] theorem raiseFault_spsr (c : FaultCause) (s : State) : (raiseFault c s).spsr = s.spsr := rfl
@[simp] theorem raiseFault_spdrTx (c : FaultCause) (s : State) : (raiseFault c s).spdrTx = s.spdrTx := rfl
@[simp] theorem raiseFault_spdrRx (c : FaultCause) (s : State) : (raiseFault c s).spdrRx = s.spdrRx := rfl
@[simp] theorem raiseFault_spdrRxFilled (c : FaultCause) (s : State) : (raiseFault c s).spdrRxFilled = s.spdrRxFilled := rfl
@[simp] theorem raiseFault_twcr (c : FaultCause) (s : State) : (raiseFault c s).twcr = s.twcr := rfl
@[simp] theorem raiseFault_twsr (c : FaultCause) (s : State) : (raiseFault c s).twsr = s.twsr := rfl
@[simp] theorem raiseFault_twbr (c : FaultCause) (s : State) : (raiseFault c s).twbr = s.twbr := rfl
@[simp] theorem raiseFault_twar (c : FaultCause) (s : State) : (raiseFault c s).twar = s.twar := rfl
@[simp] theorem raiseFault_twdr (c : FaultCause) (s : State) : (raiseFault c s).twdr = s.twdr := rfl
@[simp] theorem raiseFault_spiPending (c : FaultCause) (s : State) : (raiseFault c s).spiPending = s.spiPending := rfl
@[simp] theorem raiseFault_twiPending (c : FaultCause) (s : State) : (raiseFault c s).twiPending = s.twiPending := rfl
@[simp] theorem raiseFault_turns (c : FaultCause) (s : State) : (raiseFault c s).turns = s.turns := rfl
@[simp] theorem raiseFault_draws (c : FaultCause) (s : State) : (raiseFault c s).draws = s.draws := rfl

/-! `resetStep` -/

@[simp] theorem resetStep_params (s : State) : (resetStep s).params = s.params := rfl
@[simp] theorem resetStep_cmd (s : State) : (resetStep s).cmd = none := rfl
@[simp] theorem resetStep_phase (s : State) : (resetStep s).phase = .ready := rfl
@[simp] theorem resetStep_bus (s : State) : (resetStep s).bus = .idle := rfl
@[simp] theorem resetStep_fault (s : State) : (resetStep s).fault = none := rfl
@[simp] theorem resetStep_faultCmd (s : State) : (resetStep s).faultCmd = 0 := rfl
@[simp] theorem resetStep_resultCode (s : State) : (resetStep s).resultCode = 0 := rfl
@[simp] theorem resetStep_resultValue (s : State) : (resetStep s).resultValue = 0 := rfl
@[simp] theorem resetStep_ci (s : State) : (resetStep s).ci = 0 := rfl
@[simp] theorem resetStep_cs (s : State) : (resetStep s).cs = s.params.csLines.map fun l => (l, .undriven) := rfl
@[simp] theorem resetStep_events (s : State) : (resetStep s).events = [] := rfl
@[simp] theorem resetStep_spcr (s : State) : (resetStep s).spcr = s.params.periphReset.spcr := rfl
@[simp] theorem resetStep_spsr (s : State) : (resetStep s).spsr = resetSpsr s.params.periphReset := rfl
@[simp] theorem resetStep_spdrTx (s : State) : (resetStep s).spdrTx = s.params.periphReset.spdrTx := rfl
@[simp] theorem resetStep_spdrRx (s : State) : (resetStep s).spdrRx = s.params.periphReset.spdrRx := rfl
@[simp] theorem resetStep_spdrRxFilled (s : State) : (resetStep s).spdrRxFilled = false := rfl
@[simp] theorem resetStep_twcr (s : State) : (resetStep s).twcr = resetTwcr s.params.periphReset := rfl
@[simp] theorem resetStep_twsr (s : State) : (resetStep s).twsr = resetTwsr s.params.periphReset := rfl
@[simp] theorem resetStep_twbr (s : State) : (resetStep s).twbr = s.params.periphReset.twbr := rfl
@[simp] theorem resetStep_twar (s : State) : (resetStep s).twar = s.params.periphReset.twar := rfl
@[simp] theorem resetStep_twdr (s : State) : (resetStep s).twdr = s.params.periphReset.twdr := rfl
@[simp] theorem resetStep_spiPending (s : State) : (resetStep s).spiPending = false := rfl
@[simp] theorem resetStep_twiPending (s : State) : (resetStep s).twiPending = .none := rfl
@[simp] theorem resetStep_turns (s : State) : (resetStep s).turns = s.turns := rfl
@[simp] theorem resetStep_draws (s : State) : (resetStep s).draws = s.draws := rfl

/-! `writeSpdr` -/

@[simp] theorem writeSpdr_params (v : Byte) (s : State) : (writeSpdr v s).params = s.params := by unfold writeSpdr; split <;> [rfl; (split <;> rfl)]
@[simp] theorem writeSpdr_cmd (v : Byte) (s : State) : (writeSpdr v s).cmd = s.cmd := by unfold writeSpdr; split <;> [rfl; (split <;> rfl)]
@[simp] theorem writeSpdr_phase (v : Byte) (s : State) : (writeSpdr v s).phase = s.phase := by unfold writeSpdr; split <;> [rfl; (split <;> rfl)]
@[simp] theorem writeSpdr_bus (v : Byte) (s : State) : (writeSpdr v s).bus = s.bus := by unfold writeSpdr; split <;> [rfl; (split <;> rfl)]
@[simp] theorem writeSpdr_fault (v : Byte) (s : State) : (writeSpdr v s).fault = s.fault := by unfold writeSpdr; split <;> [rfl; (split <;> rfl)]
@[simp] theorem writeSpdr_faultCmd (v : Byte) (s : State) : (writeSpdr v s).faultCmd = s.faultCmd := by unfold writeSpdr; split <;> [rfl; (split <;> rfl)]
@[simp] theorem writeSpdr_resultCode (v : Byte) (s : State) : (writeSpdr v s).resultCode = s.resultCode := by unfold writeSpdr; split <;> [rfl; (split <;> rfl)]
@[simp] theorem writeSpdr_resultValue (v : Byte) (s : State) : (writeSpdr v s).resultValue = s.resultValue := by unfold writeSpdr; split <;> [rfl; (split <;> rfl)]
@[simp] theorem writeSpdr_ci (v : Byte) (s : State) : (writeSpdr v s).ci = s.ci := by unfold writeSpdr; split <;> [rfl; (split <;> rfl)]
@[simp] theorem writeSpdr_cs (v : Byte) (s : State) : (writeSpdr v s).cs = s.cs := by unfold writeSpdr; split <;> [rfl; (split <;> rfl)]
@[simp] theorem writeSpdr_events (v : Byte) (s : State) : (writeSpdr v s).events = s.events := by unfold writeSpdr; split <;> [rfl; (split <;> rfl)]
@[simp] theorem writeSpdr_spcr (v : Byte) (s : State) : (writeSpdr v s).spcr = s.spcr := by unfold writeSpdr; split <;> [rfl; (split <;> rfl)]
@[simp] theorem writeSpdr_spdrRx (v : Byte) (s : State) : (writeSpdr v s).spdrRx = s.spdrRx := by unfold writeSpdr; split <;> [rfl; (split <;> rfl)]
@[simp] theorem writeSpdr_spdrRxFilled (v : Byte) (s : State) : (writeSpdr v s).spdrRxFilled = s.spdrRxFilled := by unfold writeSpdr; split <;> [rfl; (split <;> rfl)]
@[simp] theorem writeSpdr_twcr (v : Byte) (s : State) : (writeSpdr v s).twcr = s.twcr := by unfold writeSpdr; split <;> [rfl; (split <;> rfl)]
@[simp] theorem writeSpdr_twsr (v : Byte) (s : State) : (writeSpdr v s).twsr = s.twsr := by unfold writeSpdr; split <;> [rfl; (split <;> rfl)]
@[simp] theorem writeSpdr_twbr (v : Byte) (s : State) : (writeSpdr v s).twbr = s.twbr := by unfold writeSpdr; split <;> [rfl; (split <;> rfl)]
@[simp] theorem writeSpdr_twar (v : Byte) (s : State) : (writeSpdr v s).twar = s.twar := by unfold writeSpdr; split <;> [rfl; (split <;> rfl)]
@[simp] theorem writeSpdr_twdr (v : Byte) (s : State) : (writeSpdr v s).twdr = s.twdr := by unfold writeSpdr; split <;> [rfl; (split <;> rfl)]
@[simp] theorem writeSpdr_twiPending (v : Byte) (s : State) : (writeSpdr v s).twiPending = s.twiPending := by unfold writeSpdr; split <;> [rfl; (split <;> rfl)]
@[simp] theorem writeSpdr_turns (v : Byte) (s : State) : (writeSpdr v s).turns = s.turns := by unfold writeSpdr; split <;> [rfl; (split <;> rfl)]
@[simp] theorem writeSpdr_draws (v : Byte) (s : State) : (writeSpdr v s).draws = s.draws := by unfold writeSpdr; split <;> [rfl; (split <;> rfl)]

/-! `writeTwdr` -/

@[simp] theorem writeTwdr_params (v : Byte) (s : State) : (writeTwdr v s).params = s.params := by unfold writeTwdr; split <;> rfl
@[simp] theorem writeTwdr_cmd (v : Byte) (s : State) : (writeTwdr v s).cmd = s.cmd := by unfold writeTwdr; split <;> rfl
@[simp] theorem writeTwdr_phase (v : Byte) (s : State) : (writeTwdr v s).phase = s.phase := by unfold writeTwdr; split <;> rfl
@[simp] theorem writeTwdr_bus (v : Byte) (s : State) : (writeTwdr v s).bus = s.bus := by unfold writeTwdr; split <;> rfl
@[simp] theorem writeTwdr_fault (v : Byte) (s : State) : (writeTwdr v s).fault = s.fault := by unfold writeTwdr; split <;> rfl
@[simp] theorem writeTwdr_faultCmd (v : Byte) (s : State) : (writeTwdr v s).faultCmd = s.faultCmd := by unfold writeTwdr; split <;> rfl
@[simp] theorem writeTwdr_resultCode (v : Byte) (s : State) : (writeTwdr v s).resultCode = s.resultCode := by unfold writeTwdr; split <;> rfl
@[simp] theorem writeTwdr_resultValue (v : Byte) (s : State) : (writeTwdr v s).resultValue = s.resultValue := by unfold writeTwdr; split <;> rfl
@[simp] theorem writeTwdr_ci (v : Byte) (s : State) : (writeTwdr v s).ci = s.ci := by unfold writeTwdr; split <;> rfl
@[simp] theorem writeTwdr_cs (v : Byte) (s : State) : (writeTwdr v s).cs = s.cs := by unfold writeTwdr; split <;> rfl
@[simp] theorem writeTwdr_events (v : Byte) (s : State) : (writeTwdr v s).events = s.events := by unfold writeTwdr; split <;> rfl
@[simp] theorem writeTwdr_spcr (v : Byte) (s : State) : (writeTwdr v s).spcr = s.spcr := by unfold writeTwdr; split <;> rfl
@[simp] theorem writeTwdr_spsr (v : Byte) (s : State) : (writeTwdr v s).spsr = s.spsr := by unfold writeTwdr; split <;> rfl
@[simp] theorem writeTwdr_spdrTx (v : Byte) (s : State) : (writeTwdr v s).spdrTx = s.spdrTx := by unfold writeTwdr; split <;> rfl
@[simp] theorem writeTwdr_spdrRx (v : Byte) (s : State) : (writeTwdr v s).spdrRx = s.spdrRx := by unfold writeTwdr; split <;> rfl
@[simp] theorem writeTwdr_spdrRxFilled (v : Byte) (s : State) : (writeTwdr v s).spdrRxFilled = s.spdrRxFilled := by unfold writeTwdr; split <;> rfl
@[simp] theorem writeTwdr_twsr (v : Byte) (s : State) : (writeTwdr v s).twsr = s.twsr := by unfold writeTwdr; split <;> rfl
@[simp] theorem writeTwdr_twbr (v : Byte) (s : State) : (writeTwdr v s).twbr = s.twbr := by unfold writeTwdr; split <;> rfl
@[simp] theorem writeTwdr_twar (v : Byte) (s : State) : (writeTwdr v s).twar = s.twar := by unfold writeTwdr; split <;> rfl
@[simp] theorem writeTwdr_spiPending (v : Byte) (s : State) : (writeTwdr v s).spiPending = s.spiPending := by unfold writeTwdr; split <;> rfl
@[simp] theorem writeTwdr_twiPending (v : Byte) (s : State) : (writeTwdr v s).twiPending = s.twiPending := by unfold writeTwdr; split <;> rfl
@[simp] theorem writeTwdr_turns (v : Byte) (s : State) : (writeTwdr v s).turns = s.turns := by unfold writeTwdr; split <;> rfl

/-! `readSpdr` -/

@[simp] theorem readSpdr_params (s : State) : (readSpdr s).2.params = s.params := by unfold readSpdr; split <;> rfl
@[simp] theorem readSpdr_cmd (s : State) : (readSpdr s).2.cmd = s.cmd := by unfold readSpdr; split <;> rfl
@[simp] theorem readSpdr_phase (s : State) : (readSpdr s).2.phase = s.phase := by unfold readSpdr; split <;> rfl
@[simp] theorem readSpdr_bus (s : State) : (readSpdr s).2.bus = s.bus := by unfold readSpdr; split <;> rfl
@[simp] theorem readSpdr_fault (s : State) : (readSpdr s).2.fault = s.fault := by unfold readSpdr; split <;> rfl
@[simp] theorem readSpdr_faultCmd (s : State) : (readSpdr s).2.faultCmd = s.faultCmd := by unfold readSpdr; split <;> rfl
@[simp] theorem readSpdr_resultCode (s : State) : (readSpdr s).2.resultCode = s.resultCode := by unfold readSpdr; split <;> rfl
@[simp] theorem readSpdr_resultValue (s : State) : (readSpdr s).2.resultValue = s.resultValue := by unfold readSpdr; split <;> rfl
@[simp] theorem readSpdr_ci (s : State) : (readSpdr s).2.ci = s.ci := by unfold readSpdr; split <;> rfl
@[simp] theorem readSpdr_cs (s : State) : (readSpdr s).2.cs = s.cs := by unfold readSpdr; split <;> rfl
@[simp] theorem readSpdr_events (s : State) : (readSpdr s).2.events = s.events := by unfold readSpdr; split <;> rfl
@[simp] theorem readSpdr_spcr (s : State) : (readSpdr s).2.spcr = s.spcr := by unfold readSpdr; split <;> rfl
@[simp] theorem readSpdr_spdrTx (s : State) : (readSpdr s).2.spdrTx = s.spdrTx := by unfold readSpdr; split <;> rfl
@[simp] theorem readSpdr_spdrRx (s : State) : (readSpdr s).2.spdrRx = s.spdrRx := by unfold readSpdr; split <;> rfl
@[simp] theorem readSpdr_spdrRxFilled (s : State) : (readSpdr s).2.spdrRxFilled = s.spdrRxFilled := by unfold readSpdr; split <;> rfl
@[simp] theorem readSpdr_twcr (s : State) : (readSpdr s).2.twcr = s.twcr := by unfold readSpdr; split <;> rfl
@[simp] theorem readSpdr_twsr (s : State) : (readSpdr s).2.twsr = s.twsr := by unfold readSpdr; split <;> rfl
@[simp] theorem readSpdr_twbr (s : State) : (readSpdr s).2.twbr = s.twbr := by unfold readSpdr; split <;> rfl
@[simp] theorem readSpdr_twar (s : State) : (readSpdr s).2.twar = s.twar := by unfold readSpdr; split <;> rfl
@[simp] theorem readSpdr_twdr (s : State) : (readSpdr s).2.twdr = s.twdr := by unfold readSpdr; split <;> rfl
@[simp] theorem readSpdr_spiPending (s : State) : (readSpdr s).2.spiPending = s.spiPending := by unfold readSpdr; split <;> rfl
@[simp] theorem readSpdr_twiPending (s : State) : (readSpdr s).2.twiPending = s.twiPending := by unfold readSpdr; split <;> rfl
@[simp] theorem readSpdr_turns (s : State) : (readSpdr s).2.turns = s.turns := by unfold readSpdr; split <;> rfl

/-! `hostStep` -/

@[simp] theorem hostStep_params (w : Word) (s : State) : (hostStep w s).params = s.params := by unfold hostStep; split <;> rfl
@[simp] theorem hostStep_phase (w : Word) (s : State) : (hostStep w s).phase = s.phase := by unfold hostStep; split <;> rfl
@[simp] theorem hostStep_bus (w : Word) (s : State) : (hostStep w s).bus = s.bus := by unfold hostStep; split <;> rfl
@[simp] theorem hostStep_fault (w : Word) (s : State) : (hostStep w s).fault = s.fault := by unfold hostStep; split <;> rfl
@[simp] theorem hostStep_faultCmd (w : Word) (s : State) : (hostStep w s).faultCmd = s.faultCmd := by unfold hostStep; split <;> rfl
@[simp] theorem hostStep_resultCode (w : Word) (s : State) : (hostStep w s).resultCode = s.resultCode := by unfold hostStep; split <;> rfl
@[simp] theorem hostStep_resultValue (w : Word) (s : State) : (hostStep w s).resultValue = s.resultValue := by unfold hostStep; split <;> rfl
@[simp] theorem hostStep_ci (w : Word) (s : State) : (hostStep w s).ci = s.ci := by unfold hostStep; split <;> rfl
@[simp] theorem hostStep_cs (w : Word) (s : State) : (hostStep w s).cs = s.cs := by unfold hostStep; split <;> rfl
@[simp] theorem hostStep_events (w : Word) (s : State) : (hostStep w s).events = s.events := by unfold hostStep; split <;> rfl
@[simp] theorem hostStep_spcr (w : Word) (s : State) : (hostStep w s).spcr = s.spcr := by unfold hostStep; split <;> rfl
@[simp] theorem hostStep_spsr (w : Word) (s : State) : (hostStep w s).spsr = s.spsr := by unfold hostStep; split <;> rfl
@[simp] theorem hostStep_spdrTx (w : Word) (s : State) : (hostStep w s).spdrTx = s.spdrTx := by unfold hostStep; split <;> rfl
@[simp] theorem hostStep_spdrRx (w : Word) (s : State) : (hostStep w s).spdrRx = s.spdrRx := by unfold hostStep; split <;> rfl
@[simp] theorem hostStep_spdrRxFilled (w : Word) (s : State) : (hostStep w s).spdrRxFilled = s.spdrRxFilled := by unfold hostStep; split <;> rfl
@[simp] theorem hostStep_twcr (w : Word) (s : State) : (hostStep w s).twcr = s.twcr := by unfold hostStep; split <;> rfl
@[simp] theorem hostStep_twsr (w : Word) (s : State) : (hostStep w s).twsr = s.twsr := by unfold hostStep; split <;> rfl
@[simp] theorem hostStep_twbr (w : Word) (s : State) : (hostStep w s).twbr = s.twbr := by unfold hostStep; split <;> rfl
@[simp] theorem hostStep_twar (w : Word) (s : State) : (hostStep w s).twar = s.twar := by unfold hostStep; split <;> rfl
@[simp] theorem hostStep_twdr (w : Word) (s : State) : (hostStep w s).twdr = s.twdr := by unfold hostStep; split <;> rfl
@[simp] theorem hostStep_spiPending (w : Word) (s : State) : (hostStep w s).spiPending = s.spiPending := by unfold hostStep; split <;> rfl
@[simp] theorem hostStep_twiPending (w : Word) (s : State) : (hostStep w s).twiPending = s.twiPending := by unfold hostStep; split <;> rfl
@[simp] theorem hostStep_turns (w : Word) (s : State) : (hostStep w s).turns = s.turns := by unfold hostStep; split <;> rfl
@[simp] theorem hostStep_draws (w : Word) (s : State) : (hostStep w s).draws = s.draws := by unfold hostStep; split <;> rfl

/-! `spiCompletionStep` -/

@[simp] theorem spiCompletionStep_params (b : Byte) (s : State) : (spiCompletionStep b s).params = s.params := by unfold spiCompletionStep; split <;> rfl
@[simp] theorem spiCompletionStep_cmd (b : Byte) (s : State) : (spiCompletionStep b s).cmd = s.cmd := by unfold spiCompletionStep; split <;> rfl
@[simp] theorem spiCompletionStep_phase (b : Byte) (s : State) : (spiCompletionStep b s).phase = s.phase := by unfold spiCompletionStep; split <;> rfl
@[simp] theorem spiCompletionStep_bus (b : Byte) (s : State) : (spiCompletionStep b s).bus = s.bus := by unfold spiCompletionStep; split <;> rfl
@[simp] theorem spiCompletionStep_fault (b : Byte) (s : State) : (spiCompletionStep b s).fault = s.fault := by unfold spiCompletionStep; split <;> rfl
@[simp] theorem spiCompletionStep_faultCmd (b : Byte) (s : State) : (spiCompletionStep b s).faultCmd = s.faultCmd := by unfold spiCompletionStep; split <;> rfl
@[simp] theorem spiCompletionStep_resultCode (b : Byte) (s : State) : (spiCompletionStep b s).resultCode = s.resultCode := by unfold spiCompletionStep; split <;> rfl
@[simp] theorem spiCompletionStep_resultValue (b : Byte) (s : State) : (spiCompletionStep b s).resultValue = s.resultValue := by unfold spiCompletionStep; split <;> rfl
@[simp] theorem spiCompletionStep_ci (b : Byte) (s : State) : (spiCompletionStep b s).ci = s.ci := by unfold spiCompletionStep; split <;> rfl
@[simp] theorem spiCompletionStep_cs (b : Byte) (s : State) : (spiCompletionStep b s).cs = s.cs := by unfold spiCompletionStep; split <;> rfl
@[simp] theorem spiCompletionStep_events (b : Byte) (s : State) : (spiCompletionStep b s).events = s.events := by unfold spiCompletionStep; split <;> rfl
@[simp] theorem spiCompletionStep_spcr (b : Byte) (s : State) : (spiCompletionStep b s).spcr = s.spcr := by unfold spiCompletionStep; split <;> rfl
@[simp] theorem spiCompletionStep_spdrTx (b : Byte) (s : State) : (spiCompletionStep b s).spdrTx = s.spdrTx := by unfold spiCompletionStep; split <;> rfl
@[simp] theorem spiCompletionStep_twcr (b : Byte) (s : State) : (spiCompletionStep b s).twcr = s.twcr := by unfold spiCompletionStep; split <;> rfl
@[simp] theorem spiCompletionStep_twsr (b : Byte) (s : State) : (spiCompletionStep b s).twsr = s.twsr := by unfold spiCompletionStep; split <;> rfl
@[simp] theorem spiCompletionStep_twbr (b : Byte) (s : State) : (spiCompletionStep b s).twbr = s.twbr := by unfold spiCompletionStep; split <;> rfl
@[simp] theorem spiCompletionStep_twar (b : Byte) (s : State) : (spiCompletionStep b s).twar = s.twar := by unfold spiCompletionStep; split <;> rfl
@[simp] theorem spiCompletionStep_twdr (b : Byte) (s : State) : (spiCompletionStep b s).twdr = s.twdr := by unfold spiCompletionStep; split <;> rfl
@[simp] theorem spiCompletionStep_twiPending (b : Byte) (s : State) : (spiCompletionStep b s).twiPending = s.twiPending := by unfold spiCompletionStep; split <;> rfl
@[simp] theorem spiCompletionStep_turns (b : Byte) (s : State) : (spiCompletionStep b s).turns = s.turns := by unfold spiCompletionStep; split <;> rfl
@[simp] theorem spiCompletionStep_draws (b : Byte) (s : State) : (spiCompletionStep b s).draws = s.draws := by unfold spiCompletionStep; split <;> rfl

/-! `twiCompletionStep` -/

@[simp] theorem twiCompletionStep_params (st : BitVec 5) (b : Byte) (s : State) : (twiCompletionStep st b s).params = s.params := by unfold twiCompletionStep; split <;> rfl
@[simp] theorem twiCompletionStep_cmd (st : BitVec 5) (b : Byte) (s : State) : (twiCompletionStep st b s).cmd = s.cmd := by unfold twiCompletionStep; split <;> rfl
@[simp] theorem twiCompletionStep_phase (st : BitVec 5) (b : Byte) (s : State) : (twiCompletionStep st b s).phase = s.phase := by unfold twiCompletionStep; split <;> rfl
@[simp] theorem twiCompletionStep_bus (st : BitVec 5) (b : Byte) (s : State) : (twiCompletionStep st b s).bus = s.bus := by unfold twiCompletionStep; split <;> rfl
@[simp] theorem twiCompletionStep_fault (st : BitVec 5) (b : Byte) (s : State) : (twiCompletionStep st b s).fault = s.fault := by unfold twiCompletionStep; split <;> rfl
@[simp] theorem twiCompletionStep_faultCmd (st : BitVec 5) (b : Byte) (s : State) : (twiCompletionStep st b s).faultCmd = s.faultCmd := by unfold twiCompletionStep; split <;> rfl
@[simp] theorem twiCompletionStep_resultCode (st : BitVec 5) (b : Byte) (s : State) : (twiCompletionStep st b s).resultCode = s.resultCode := by unfold twiCompletionStep; split <;> rfl
@[simp] theorem twiCompletionStep_resultValue (st : BitVec 5) (b : Byte) (s : State) : (twiCompletionStep st b s).resultValue = s.resultValue := by unfold twiCompletionStep; split <;> rfl
@[simp] theorem twiCompletionStep_ci (st : BitVec 5) (b : Byte) (s : State) : (twiCompletionStep st b s).ci = s.ci := by unfold twiCompletionStep; split <;> rfl
@[simp] theorem twiCompletionStep_cs (st : BitVec 5) (b : Byte) (s : State) : (twiCompletionStep st b s).cs = s.cs := by unfold twiCompletionStep; split <;> rfl
@[simp] theorem twiCompletionStep_events (st : BitVec 5) (b : Byte) (s : State) : (twiCompletionStep st b s).events = s.events := by unfold twiCompletionStep; split <;> rfl
@[simp] theorem twiCompletionStep_spcr (st : BitVec 5) (b : Byte) (s : State) : (twiCompletionStep st b s).spcr = s.spcr := by unfold twiCompletionStep; split <;> rfl
@[simp] theorem twiCompletionStep_spsr (st : BitVec 5) (b : Byte) (s : State) : (twiCompletionStep st b s).spsr = s.spsr := by unfold twiCompletionStep; split <;> rfl
@[simp] theorem twiCompletionStep_spdrTx (st : BitVec 5) (b : Byte) (s : State) : (twiCompletionStep st b s).spdrTx = s.spdrTx := by unfold twiCompletionStep; split <;> rfl
@[simp] theorem twiCompletionStep_spdrRx (st : BitVec 5) (b : Byte) (s : State) : (twiCompletionStep st b s).spdrRx = s.spdrRx := by unfold twiCompletionStep; split <;> rfl
@[simp] theorem twiCompletionStep_spdrRxFilled (st : BitVec 5) (b : Byte) (s : State) : (twiCompletionStep st b s).spdrRxFilled = s.spdrRxFilled := by unfold twiCompletionStep; split <;> rfl
@[simp] theorem twiCompletionStep_twbr (st : BitVec 5) (b : Byte) (s : State) : (twiCompletionStep st b s).twbr = s.twbr := by unfold twiCompletionStep; split <;> rfl
@[simp] theorem twiCompletionStep_twar (st : BitVec 5) (b : Byte) (s : State) : (twiCompletionStep st b s).twar = s.twar := by unfold twiCompletionStep; split <;> rfl
@[simp] theorem twiCompletionStep_spiPending (st : BitVec 5) (b : Byte) (s : State) : (twiCompletionStep st b s).spiPending = s.spiPending := by unfold twiCompletionStep; split <;> rfl
@[simp] theorem twiCompletionStep_turns (st : BitVec 5) (b : Byte) (s : State) : (twiCompletionStep st b s).turns = s.turns := by unfold twiCompletionStep; split <;> rfl
@[simp] theorem twiCompletionStep_draws (st : BitVec 5) (b : Byte) (s : State) : (twiCompletionStep st b s).draws = s.draws := by unfold twiCompletionStep; split <;> rfl

/-! `stopSettleStep` -/

@[simp] theorem stopSettleStep_params (st : BitVec 5) (s : State) : (stopSettleStep st s).params = s.params := by unfold stopSettleStep; split <;> rfl
@[simp] theorem stopSettleStep_cmd (st : BitVec 5) (s : State) : (stopSettleStep st s).cmd = s.cmd := by unfold stopSettleStep; split <;> rfl
@[simp] theorem stopSettleStep_phase (st : BitVec 5) (s : State) : (stopSettleStep st s).phase = s.phase := by unfold stopSettleStep; split <;> rfl
@[simp] theorem stopSettleStep_bus (st : BitVec 5) (s : State) : (stopSettleStep st s).bus = s.bus := by unfold stopSettleStep; split <;> rfl
@[simp] theorem stopSettleStep_fault (st : BitVec 5) (s : State) : (stopSettleStep st s).fault = s.fault := by unfold stopSettleStep; split <;> rfl
@[simp] theorem stopSettleStep_faultCmd (st : BitVec 5) (s : State) : (stopSettleStep st s).faultCmd = s.faultCmd := by unfold stopSettleStep; split <;> rfl
@[simp] theorem stopSettleStep_resultCode (st : BitVec 5) (s : State) : (stopSettleStep st s).resultCode = s.resultCode := by unfold stopSettleStep; split <;> rfl
@[simp] theorem stopSettleStep_resultValue (st : BitVec 5) (s : State) : (stopSettleStep st s).resultValue = s.resultValue := by unfold stopSettleStep; split <;> rfl
@[simp] theorem stopSettleStep_ci (st : BitVec 5) (s : State) : (stopSettleStep st s).ci = s.ci := by unfold stopSettleStep; split <;> rfl
@[simp] theorem stopSettleStep_cs (st : BitVec 5) (s : State) : (stopSettleStep st s).cs = s.cs := by unfold stopSettleStep; split <;> rfl
@[simp] theorem stopSettleStep_events (st : BitVec 5) (s : State) : (stopSettleStep st s).events = s.events := by unfold stopSettleStep; split <;> rfl
@[simp] theorem stopSettleStep_spcr (st : BitVec 5) (s : State) : (stopSettleStep st s).spcr = s.spcr := by unfold stopSettleStep; split <;> rfl
@[simp] theorem stopSettleStep_spsr (st : BitVec 5) (s : State) : (stopSettleStep st s).spsr = s.spsr := by unfold stopSettleStep; split <;> rfl
@[simp] theorem stopSettleStep_spdrTx (st : BitVec 5) (s : State) : (stopSettleStep st s).spdrTx = s.spdrTx := by unfold stopSettleStep; split <;> rfl
@[simp] theorem stopSettleStep_spdrRx (st : BitVec 5) (s : State) : (stopSettleStep st s).spdrRx = s.spdrRx := by unfold stopSettleStep; split <;> rfl
@[simp] theorem stopSettleStep_spdrRxFilled (st : BitVec 5) (s : State) : (stopSettleStep st s).spdrRxFilled = s.spdrRxFilled := by unfold stopSettleStep; split <;> rfl
@[simp] theorem stopSettleStep_twbr (st : BitVec 5) (s : State) : (stopSettleStep st s).twbr = s.twbr := by unfold stopSettleStep; split <;> rfl
@[simp] theorem stopSettleStep_twar (st : BitVec 5) (s : State) : (stopSettleStep st s).twar = s.twar := by unfold stopSettleStep; split <;> rfl
@[simp] theorem stopSettleStep_twdr (st : BitVec 5) (s : State) : (stopSettleStep st s).twdr = s.twdr := by unfold stopSettleStep; split <;> rfl
@[simp] theorem stopSettleStep_spiPending (st : BitVec 5) (s : State) : (stopSettleStep st s).spiPending = s.spiPending := by unfold stopSettleStep; split <;> rfl
@[simp] theorem stopSettleStep_twiPending (st : BitVec 5) (s : State) : (stopSettleStep st s).twiPending = s.twiPending := by unfold stopSettleStep; split <;> rfl
@[simp] theorem stopSettleStep_turns (st : BitVec 5) (s : State) : (stopSettleStep st s).turns = s.turns := by unfold stopSettleStep; split <;> rfl
@[simp] theorem stopSettleStep_draws (st : BitVec 5) (s : State) : (stopSettleStep st s).draws = s.draws := by unfold stopSettleStep; split <;> rfl

/-! `turnTaken` -/

@[simp] theorem turnTaken_params (s : State) : s.turnTaken.params = s.params := by unfold State.turnTaken; split <;> rfl
@[simp] theorem turnTaken_cmd (s : State) : s.turnTaken.cmd = s.cmd := by unfold State.turnTaken; split <;> rfl
@[simp] theorem turnTaken_phase (s : State) : s.turnTaken.phase = s.phase := by unfold State.turnTaken; split <;> rfl
@[simp] theorem turnTaken_bus (s : State) : s.turnTaken.bus = s.bus := by unfold State.turnTaken; split <;> rfl
@[simp] theorem turnTaken_fault (s : State) : s.turnTaken.fault = s.fault := by unfold State.turnTaken; split <;> rfl
@[simp] theorem turnTaken_faultCmd (s : State) : s.turnTaken.faultCmd = s.faultCmd := by unfold State.turnTaken; split <;> rfl
@[simp] theorem turnTaken_resultCode (s : State) : s.turnTaken.resultCode = s.resultCode := by unfold State.turnTaken; split <;> rfl
@[simp] theorem turnTaken_resultValue (s : State) : s.turnTaken.resultValue = s.resultValue := by unfold State.turnTaken; split <;> rfl
@[simp] theorem turnTaken_ci (s : State) : s.turnTaken.ci = s.ci := by unfold State.turnTaken; split <;> rfl
@[simp] theorem turnTaken_cs (s : State) : s.turnTaken.cs = s.cs := by unfold State.turnTaken; split <;> rfl
@[simp] theorem turnTaken_events (s : State) : s.turnTaken.events = s.events := by unfold State.turnTaken; split <;> rfl
@[simp] theorem turnTaken_spcr (s : State) : s.turnTaken.spcr = s.spcr := by unfold State.turnTaken; split <;> rfl
@[simp] theorem turnTaken_spsr (s : State) : s.turnTaken.spsr = s.spsr := by unfold State.turnTaken; split <;> rfl
@[simp] theorem turnTaken_spdrTx (s : State) : s.turnTaken.spdrTx = s.spdrTx := by unfold State.turnTaken; split <;> rfl
@[simp] theorem turnTaken_spdrRx (s : State) : s.turnTaken.spdrRx = s.spdrRx := by unfold State.turnTaken; split <;> rfl
@[simp] theorem turnTaken_spdrRxFilled (s : State) : s.turnTaken.spdrRxFilled = s.spdrRxFilled := by unfold State.turnTaken; split <;> rfl
@[simp] theorem turnTaken_twcr (s : State) : s.turnTaken.twcr = s.twcr := by unfold State.turnTaken; split <;> rfl
@[simp] theorem turnTaken_twsr (s : State) : s.turnTaken.twsr = s.twsr := by unfold State.turnTaken; split <;> rfl
@[simp] theorem turnTaken_twbr (s : State) : s.turnTaken.twbr = s.twbr := by unfold State.turnTaken; split <;> rfl
@[simp] theorem turnTaken_twar (s : State) : s.turnTaken.twar = s.twar := by unfold State.turnTaken; split <;> rfl
@[simp] theorem turnTaken_twdr (s : State) : s.turnTaken.twdr = s.twdr := by unfold State.turnTaken; split <;> rfl
@[simp] theorem turnTaken_spiPending (s : State) : s.turnTaken.spiPending = s.spiPending := by unfold State.turnTaken; split <;> rfl
@[simp] theorem turnTaken_twiPending (s : State) : s.turnTaken.twiPending = s.twiPending := by unfold State.turnTaken; split <;> rfl

end Sys2Proof.Machine
end

