-- ==== Sys2Proof/Laws/Ops.lean ====
section
/-! SUPPORT. One lemma per shared operation that says what it can do, for proofs to cite instead of unfolding it. -/

namespace Sys2Proof.Machine

/-! Bits of a register byte. -/

theorem putBit_getLsbD (v : Byte) (n m : Nat) (b : Bool) (hn : n < 8) (hm : m < 8) :
    (putBit v n b).getLsbD m = if m = n then b else v.getLsbD m := by
  have h1 : ∀ k : Nat, (1#8).getLsbD k = decide (k = 0) := by intro k; simp
  cases b <;> simp only [putBit, Bool.false_eq_true, if_false, if_true, BitVec.getLsbD_and, BitVec.getLsbD_or,
    BitVec.getLsbD_not, BitVec.getLsbD_shiftLeft, h1]
  all_goals
    by_cases hmn : m = n
    · subst hmn; simp [hm]
    · by_cases hlt : m < n
      all_goals simp [hmn, hm, hlt]
      all_goals omega

/-- Bit `m` of a register byte after bit `n` was put to `b`. -/
theorem putBit_getElem (v : Byte) (n m : Nat) (b : Bool) (hn : n < 8) (hm : m < 8) :
    (putBit v n b)[m] = if m = n then b else v[m] := by
  rw [← BitVec.getLsbD_eq_getElem, ← BitVec.getLsbD_eq_getElem, putBit_getLsbD v n m b hn hm]

/-! The flag changes as masks. -/

theorem spsrCompleted_eq (v : Byte) : spsrCompleted v = v ||| 0x80 := by simp [spsrCompleted, putBit]

theorem spsrCollided_eq (v : Byte) : spsrCollided v = v ||| 0x40 := by simp [spsrCollided, putBit]

theorem spsrDataRead_eq (v : Byte) : spsrDataRead v = v &&& 0x3F := by
  simp [spsrDataRead, putBit, BitVec.and_assoc]

theorem spsrWritten_eq (old v : Byte) : spsrWritten old v = (old &&& 0xFE) ||| (v &&& 0x01) := by
  apply BitVec.eq_of_getLsbD_eq
  intro i hi
  have h1 : ∀ i, i < 8 → (0x01 : Byte).getLsbD i = decide (i = 0) := by decide
  have h2 : ∀ i, i < 8 → (0xFE : Byte).getLsbD i = !decide (i = 0) := by decide
  rw [spsrWritten, putBit_getLsbD old 0 i _ (by decide) hi, BitVec.getLsbD_or, BitVec.getLsbD_and, BitVec.getLsbD_and,
    h1 i hi, h2 i hi]
  by_cases h : i = 0
  · subst h; simp
  · simp [h]

theorem twcrCompleted_eq (v : Byte) : twcrCompleted v = v ||| 0x80 := by simp [twcrCompleted, putBit]

theorem twcrStopSettled_eq (v : Byte) : twcrStopSettled v = v &&& 0xEF := by simp [twcrStopSettled, putBit]

theorem twcrDataWritten_of_set (v : Byte) (h : v[7] = true) : twcrDataWritten v = v &&& 0xF7 := by
  simp [twcrDataWritten, putBit, h]

theorem twcrDataWritten_of_clear (v : Byte) (h : v[7] = false) : twcrDataWritten v = v ||| 0x08 := by
  simp [twcrDataWritten, putBit, h]

theorem twcrWritten_of_set (old v : Byte) (h : v[7] = true) : twcrWritten old v = (v &&& 0x75) ||| (old &&& 0x0A) := by
  simp [twcrWritten, h]

theorem twcrWritten_of_clear (old v : Byte) (h : v[7] = false) : twcrWritten old v = (v &&& 0x75) ||| (old &&& 0x8A) := by
  simp [twcrWritten, h]

/-! The bits of `TWCR` after a write (20 R46): `TWINT` is cleared by a 1 and left by a 0. -/

@[simp] theorem twcrWritten_twint (old v : Byte) : (twcrWritten old v)[7] = (old[7] && !v[7]) := by
  unfold twcrWritten; cases v[7] <;> simp

@[simp] theorem twcrWritten_twea (old v : Byte) : (twcrWritten old v)[6] = v[6] := by
  unfold twcrWritten; cases v[7] <;> simp

@[simp] theorem twcrWritten_twsta (old v : Byte) : (twcrWritten old v)[5] = v[5] := by
  unfold twcrWritten; cases v[7] <;> simp

@[simp] theorem twcrWritten_twsto (old v : Byte) : (twcrWritten old v)[4] = v[4] := by
  unfold twcrWritten; cases v[7] <;> simp

@[simp] theorem twcrWritten_twwc (old v : Byte) : (twcrWritten old v)[3] = old[3] := by
  unfold twcrWritten; cases v[7] <;> simp

@[simp] theorem twcrWritten_twen (old v : Byte) : (twcrWritten old v)[2] = v[2] := by
  unfold twcrWritten; cases v[7] <;> simp

@[simp] theorem twcrWritten_reserved (old v : Byte) : (twcrWritten old v)[1] = old[1] := by
  unfold twcrWritten; cases v[7] <;> simp

@[simp] theorem twcrWritten_twie (old v : Byte) : (twcrWritten old v)[0] = v[0] := by
  unfold twcrWritten; cases v[7] <;> simp

/-- A new status code over the kept low bits, as a number (20 R50). -/
theorem twsrStatus_eq (old : Byte) (status : BitVec 5) :
    twsrStatus old status = BitVec.ofNat 8 (8 * status.toNat) ||| (old &&& 0x07) := by
  apply BitVec.eq_of_toNat_eq
  have h1 := status.isLt
  have h2 : old.toNat &&& 7 = old.toNat % 8 := Nat.and_two_pow_sub_one_eq_mod old.toNat 3
  simp only [twsrStatus, BitVec.toNat_append, BitVec.toNat_or, BitVec.toNat_ofNat, BitVec.toNat_and,
    BitVec.extractLsb'_toNat, Nat.shiftRight_zero, Nat.shiftLeft_eq]
  rw [show 2 ^ 3 = 8 from rfl, show 2 ^ 8 = 256 from rfl, show BitVec.toNat (7 : Byte) = 7 from rfl, h2,
    Nat.mod_eq_of_lt (by omega : 8 * status.toNat < 256), Nat.mul_comm]

/-- The low three bits of `TWSR` are kept by a new status code (20 R50). -/
theorem twsrStatus_getLsbD (old : Byte) (status : BitVec 5) (m : Nat) :
    (twsrStatus old status).getLsbD m = if m < 3 then old.getLsbD m else status.getLsbD (m - 3) := by
  unfold twsrStatus
  rw [BitVec.getLsbD_append]
  split <;> simp_all

/-! Register reads. -/

/-- Every read but that of `SPDR` returns the register's value and changes nothing (20 R42). -/
theorem memRead_of_ne_spdr (r : Reg) (s : State) (h : r ≠ .spdr) : memRead r s = (s.reg r, s) := by
  cases r <;> first | rfl | exact absurd rfl h

@[simp] theorem memRead_spdr (s : State) : memRead .spdr s = readSpdr s := rfl
@[simp] theorem memRead_spsr (s : State) : memRead .spsr s = (s.spsr, s) := rfl
@[simp] theorem memRead_twsr (s : State) : memRead .twsr s = (s.twsr, s) := rfl
@[simp] theorem memRead_twdr (s : State) : memRead .twdr s = (s.twdr, s) := rfl

theorem readSpdr_of_filled (s : State) (h : s.spdrRxFilled = true) :
    readSpdr s = (s.spdrRx, { s with spsr := spsrDataRead s.spsr }) := by simp [readSpdr, h, State.spdrReadEffect]

theorem readSpdr_of_empty (s : State) (h : s.spdrRxFilled = false) :
    readSpdr s = (Config.freeByte s.draws, { s with draws := s.draws + 1, spsr := spsrDataRead s.spsr }) := by
  simp [readSpdr, h, State.spdrReadEffect, State.freeByteTaken, State.freeByte]

/-- A read of `SPDR` clears `SPIF` and `WCOL` whatever it returns (20 R41). -/
@[simp] theorem readSpdr_spsr (s : State) : (readSpdr s).2.spsr = spsrDataRead s.spsr := by
  unfold readSpdr; split <;> rfl

/-! Register writes. -/

@[simp] theorem memWrite_spcr (v : Byte) (s : State) : memWrite .spcr v s = { s with spcr := v } := rfl
@[simp] theorem memWrite_spsr (v : Byte) (s : State) : memWrite .spsr v s = { s with spsr := spsrWritten s.spsr v } := rfl
@[simp] theorem memWrite_spdr (v : Byte) (s : State) : memWrite .spdr v s = writeSpdr v s := rfl
@[simp] theorem memWrite_twcr (v : Byte) (s : State) : memWrite .twcr v s = writeTwcr v s := rfl
@[simp] theorem memWrite_twsr (v : Byte) (s : State) : memWrite .twsr v s = { s with twsr := twsrWritten s.twsr v } := rfl
@[simp] theorem memWrite_twbr (v : Byte) (s : State) : memWrite .twbr v s = { s with twbr := v } := rfl
@[simp] theorem memWrite_twar (v : Byte) (s : State) : memWrite .twar v s = { s with twar := v } := rfl
@[simp] theorem memWrite_twdr (v : Byte) (s : State) : memWrite .twdr v s = writeTwdr v s := rfl

/-- What a write of `SPDR` can do (20 R45). -/
theorem writeSpdr_cases (v : Byte) (s : State) :
    (s.spiPending = true ∧ writeSpdr v s = { s with spdrTx := v, spsr := spsrCollided s.spsr }) ∨
    (s.spiPending = false ∧ s.spe = true ∧ writeSpdr v s = { s with spdrTx := v, spiPending := true }) ∨
    (s.spiPending = false ∧ s.spe = false ∧ writeSpdr v s = { s with spdrTx := v }) := by
  cases hp : s.spiPending <;> cases he : s.spe <;> simp [writeSpdr, hp, he]

/-- What a write of `TWDR` can do (20 R48). -/
theorem writeTwdr_cases (v : Byte) (s : State) :
    (s.twint = true ∧ writeTwdr v s = { s with twdr := v, twcr := twcrDataWritten s.twcr }) ∨
    (s.twint = false ∧ writeTwdr v s = { s with
      twdr := Config.freeByte s.draws, twcr := twcrDataWritten s.twcr, draws := s.draws + 1 }) := by
  cases h : s.twint <;> simp [writeTwdr, h, State.freeByteTaken, State.freeByte]

/-! Chip select. -/

/-- Driving a line keeps the list of lines. -/
@[simp] theorem csDriven_lines (cs : List (Nat × CsLevel)) (l : Nat) (level : CsLevel) :
    (csDriven cs l level).map (fun entry => entry.1) = cs.map (fun entry => entry.1) := by
  induction cs with
  | nil => rfl
  | cons entry rest ih =>
    have hrest : csDriven (entry :: rest) l level =
        (if entry.1 = l then (l, level) else entry) :: csDriven rest l level := rfl
    rw [hrest, List.map_cons, List.map_cons, ih]
    congr 1
    split <;> simp_all

/-- The driven line reads the new level, and every other line reads as before (10 R20). -/
theorem csDriven_lookup (cs : List (Nat × CsLevel)) (l k : Nat) (level : CsLevel) :
    (csDriven cs l level).lookup k =
      if k = l then (cs.lookup k).map (fun _ => level) else cs.lookup k := by
  induction cs with
  | nil => simp [csDriven]
  | cons entry rest ih =>
    have hrest : csDriven (entry :: rest) l level =
        (if entry.1 = l then (l, level) else entry) :: csDriven rest l level := rfl
    rw [hrest]
    obtain ⟨a, b⟩ := entry
    by_cases hk : k = l <;> by_cases ha : a = l
    · subst hk; subst ha; simp
    · subst hk
      have : (k == a) = false := by simpa using fun h => ha h.symm
      simp only [ha, if_false, List.lookup_cons, this, ih, if_true]
    · subst ha
      have : (k == a) = false := by simpa using hk
      simp only [if_true, List.lookup_cons, this, ih, hk, if_false]
    · simp only [ha, hk, if_false, List.lookup_cons, ih]

/-! The prologue of the I2C commands. -/

/-- What a sequence check can do (43 R96). -/
theorem checkSequence_cases (valid : BusState → Bool) (body : State → State) (s : State) :
    (valid s.bus = true ∧ checkSequence valid body s = body s) ∨
    (valid s.bus = false ∧ checkSequence valid body s = raiseFault .sequenceViolation s) := by
  cases h : valid s.bus <;> simp [checkSequence, h]

/-- What the prologue can do (43 R97): begin to hold, or (settled or not in `StopPending`) check the sequence. -/
theorem prologue_cases (valid : BusState → Bool) (body : State → State) (s : State) :
    (s.bus = .stopPending ∧ ¬ (s.phase = .waitSettle ∧ s.twsto = false) ∧
      prologue valid body s = { s with phase := .waitSettle }) ∨
    (s.bus = .stopPending ∧ s.phase = .waitSettle ∧ s.twsto = false ∧
      prologue valid body s = checkSequence valid body { s with bus := .idle }) ∨
    (s.bus ≠ .stopPending ∧ prologue valid body s = checkSequence valid body s) := by
  by_cases hb : s.bus = .stopPending
  · by_cases hp : s.phase = .waitSettle ∧ s.twsto = false
    · exact .inr (.inl ⟨hb, hp.1, hp.2, by simp [prologue, hb, hp, setBus]⟩)
    · exact .inl ⟨hb, hp, by simp only [prologue, hb, if_true, if_neg hp, enterPhase]⟩
  · exact .inr (.inr ⟨hb, by simp [prologue, hb]⟩)

/-! The dispatch, the block's step by phase, and the step by turn. -/

@[simp] theorem exec_spiValidate (d : Nat) (x2 : Bool) (s : State) : exec (.spiValidate d x2) s = execSpiValidate d x2 s := rfl
@[simp] theorem exec_spiLookup (c m : Nat) (s : State) : exec (.spiLookup c m) s = execSpiLookup c m s := rfl
@[simp] theorem exec_spiConfigure (d m : Nat) (ma x2 lsb ie pr : Bool) (s : State) :
    exec (.spiConfigure d m ma x2 lsb ie pr) s = execSpiConfigure d m ma x2 lsb ie pr s := rfl
@[simp] theorem exec_spiSelect (l : Nat) (s : State) : exec (.spiSelect l) s = execSpiSelect l s := rfl
@[simp] theorem exec_spiDeselect (l : Nat) (s : State) : exec (.spiDeselect l) s = execSpiDeselect l s := rfl
@[simp] theorem exec_spiTransfer (b : Byte) (s : State) : exec (.spiTransfer b) s = execSpiTransfer b s := rfl
@[simp] theorem exec_spiSend (b : Byte) (s : State) : exec (.spiSend b) s = execSpiSend b s := rfl
@[simp] theorem exec_i2cInit (t : Nat) (s : State) : exec (.i2cInit t) s = execI2cInit t s := rfl
@[simp] theorem exec_i2cOwnAddr (a : Nat) (s : State) : exec (.i2cOwnAddr a) s = execI2cOwnAddr a s := rfl
@[simp] theorem exec_i2cStart (s : State) : exec .i2cStart s = execI2cStart s := rfl
@[simp] theorem exec_i2cAddress (a d : Nat) (s : State) : exec (.i2cAddress a d) s = execI2cAddress a d s := rfl
@[simp] theorem exec_i2cSend (b : Byte) (s : State) : exec (.i2cSend b) s = execI2cSend b s := rfl
@[simp] theorem exec_i2cReadAck (s : State) : exec .i2cReadAck s = execI2cReadAck s := rfl
@[simp] theorem exec_i2cReadNack (s : State) : exec .i2cReadNack s = execI2cReadNack s := rfl
@[simp] theorem exec_i2cStop (s : State) : exec .i2cStop s = execI2cStop s := rfl
@[simp] theorem exec_i2cStatus (s : State) : exec .i2cStatus s = execI2cStatus s := rfl

theorem blockStep_ready (s : State) (h : s.phase = .ready) : blockStep s = runCommand s := by simp [blockStep, h]

theorem blockStep_waitSpi (s : State) (k : SpiWait) (h : s.phase = .waitSpi k) :
    blockStep s = .next (if s.spif then finishSpi k s else s) := by simp [blockStep, h]

theorem blockStep_waitTwi (s : State) (k : TwiWait) (h : s.phase = .waitTwi k) :
    blockStep s = .next (if s.twint then finishTwi k s else s) := by simp [blockStep, h]

theorem blockStep_waitSettle (s : State) (h : s.phase = .waitSettle) :
    blockStep s = if s.twsto then .next s else runCommand s := by simp [blockStep, h]

theorem blockStep_faulted (s : State) (h : s.phase = .faulted) : blockStep s = .next s := by simp [blockStep, h]

theorem runCommand_none (s : State) (h : s.cmd = none) : runCommand s = .next s := by simp [runCommand, h]

theorem runCommand_command (s : State) (w : Word) (i : Instr) (hc : s.cmd = some w) (hd : decode w = .command i) :
    runCommand s = exec i s := by simp [runCommand, hc, decodeStep, hd]

theorem runCommand_illegal (s : State) (w : Word) (e : DecodeError) (hc : s.cmd = some w) (hd : decode w = .illegal e) :
    runCommand s = .next (raiseFault .illegalCommand s) := by simp [runCommand, hc, decodeStep, hd]

/-- A step whose choice is already made. -/
theorem step_of_turn (s : State) (t : Turn) (rest : List Turn) (h : s.turns = t :: rest) :
    step s = agentStep t { s with turns := rest } := by simp [step, State.nextTurn, State.turnTaken, h]

/-- A step whose choice is free. -/
theorem step_of_free (s : State) (h : s.turns = []) :
    step s = agentStep (Config.schedule s.draws) { s with draws := s.draws + 1 } := by
  simp [step, State.nextTurn, State.turnTaken, h]

end Sys2Proof.Machine
end

