-- ==== Sys2Proof/Laws/PerInstr.lean ====
section
/-! SUPPORT. Statements about every instruction as syntax, one lemma per constructor: the encoded word of a well-formed
instruction has its row's opcode and no constrained bit set (spec 30 R59, R61). -/

namespace Sys2Proof.Laws

/-- A command word whose fields have no bit under a format's constrained bits matches the format's row. -/
theorem commandWord_and_mask (f4 f3 f2 f1 f0 : Bool) (b a op : Byte) (m : Word)
    (hop : ∀ i, i < 8 → m.getLsbD i = true)
    (ha : ∀ i, i < 8 → (a.getLsbD i && m.getLsbD (i + 8)) = false)
    (hb : ∀ i, i < 8 → (b.getLsbD i && m.getLsbD (i + 16)) = false)
    (h0 : (f0 && m.getLsbD 24) = false) (h1 : (f1 && m.getLsbD 25) = false) (h2 : (f2 && m.getLsbD 26) = false)
    (h3 : (f3 && m.getLsbD 27) = false) (h4 : (f4 && m.getLsbD 28) = false) :
    commandWord f4 f3 f2 f1 f0 b a op &&& m = op.setWidth 32 := by
  apply BitVec.eq_of_getLsbD_eq
  intro i hi
  rw [BitVec.getLsbD_and, commandWord_getLsbD, BitVec.getLsbD_setWidth]
  by_cases c1 : i < 8
  · simp [c1, hop i c1, hi]
  have hz : op.getLsbD i = false := BitVec.getLsbD_of_ge op i (by omega)
  by_cases c2 : i < 16
  · have := ha (i - 8) (by omega)
    rw [show i - 8 + 8 = i by omega] at this
    simp only [c1, c2, if_true, if_false, this, hz, Bool.and_false]
  by_cases c3 : i < 24
  · have := hb (i - 16) (by omega)
    rw [show i - 16 + 16 = i by omega] at this
    simp only [c1, c2, c3, if_true, if_false, this, hz, Bool.and_false]
  simp only [c1, c2, c3, if_false, hz, Bool.and_false]
  split
  · subst i; exact h0
  split
  · subst i; exact h1
  split
  · subst i; exact h2
  split
  · subst i; exact h3
  split
  · subst i; exact h4
  rfl

/-- A field under no constrained bit. -/
theorem free_field (v : Byte) (m : Word) (lo : Nat) (h : ∀ i, i < 8 → m.getLsbD (i + lo) = false) :
    ∀ i, i < 8 → (v.getLsbD i && m.getLsbD (i + lo)) = false := by
  intro i hi
  rw [h i hi, Bool.and_false]

/-- A field that is 0. -/
theorem zero_field (m : Word) (lo : Nat) : ∀ i, i < 8 → ((0 : Byte).getLsbD i && m.getLsbD (i + lo)) = false := by
  intro i _
  simp

/-- A field that holds a number below `2 ^ k`, under constrained bits from `k` on only. -/
theorem small_field (n k : Nat) (m : Word) (lo : Nat) (hn : n < 2 ^ k)
    (h : ∀ i, i < 8 → i < k → m.getLsbD (i + lo) = false) :
    ∀ i, i < 8 → ((BitVec.ofNat 8 n).getLsbD i && m.getLsbD (i + lo)) = false := by
  intro i hi
  by_cases hk : i < k
  · rw [h i hi hk, Bool.and_false]
  · rw [ofNat_getLsbD_of_lt hn (by omega), Bool.false_and]

/-- The row of format A: operand `A` free, everything else 0. -/
theorem formatA_row (a op : Byte) : abWord 0 a op &&& Format.mask .a = op.setWidth 32 :=
  commandWord_and_mask _ _ _ _ _ _ _ _ _ (by decide) (free_field _ _ _ (by decide)) (zero_field _ _)
    rfl rfl rfl rfl rfl

end Sys2Proof.Laws

/-- The encoded word of a well-formed instruction matches the row of its opcode and format. -/
def Sys2Proof.Laws.EncodedWordFitsRow.Statement (i : Sys2Proof.Instr) : Prop :=
  i.wellFormed = true → Sys2Proof.encode i &&& i.format.mask = i.opcode.setWidth 32

namespace Sys2Proof.Laws.EncodedWordFitsRow

theorem spiValidate (divider : Nat) (doubleSpeed : Bool) : Statement (.spiValidate divider doubleSpeed) := fun _ =>
  commandWord_and_mask _ _ _ _ _ _ _ _ (Format.mask .v) (by decide) (free_field _ _ _ (by decide)) (zero_field _ _)
    rfl (Bool.and_false _) rfl rfl rfl

theorem spiLookup (cls lmode : Nat) : Statement (.spiLookup cls lmode) := by
  intro h
  simp only [Instr.wellFormed, Bool.and_eq_true, decide_eq_true_eq] at h
  exact commandWord_and_mask _ _ _ _ _ _ _ _ (Format.mask .l) (by decide) (small_field _ 2 _ _ h.1 (by decide))
    (small_field _ 2 _ _ h.2 (by decide)) rfl rfl rfl rfl rfl

theorem spiConfigure (divider mode : Nat) (ma x2 lsb ie pr : Bool) :
    Statement (.spiConfigure divider mode ma x2 lsb ie pr) := fun _ =>
  commandWord_and_mask _ _ _ _ _ _ _ _ (Format.mask .cfg) (by decide) (free_field _ _ _ (by decide)) (free_field _ _ _ (by decide))
    (Bool.and_false _) (Bool.and_false _) (Bool.and_false _) (Bool.and_false _) (Bool.and_false _)

theorem spiSelect (line : Nat) : Statement (.spiSelect line) := fun _ => formatA_row _ _

theorem spiDeselect (line : Nat) : Statement (.spiDeselect line) := fun _ => formatA_row _ _

theorem spiTransfer (byte : Byte) : Statement (.spiTransfer byte) := fun _ => formatA_row _ _

theorem spiSend (byte : Byte) : Statement (.spiSend byte) := fun _ => formatA_row _ _

theorem i2cInit (targetHz : Nat) : Statement (.i2cInit targetHz) := by
  intro _
  apply BitVec.eq_of_getLsbD_eq
  intro i hi
  have hm : (Format.mask .h).getLsbD i = decide (i < 8) := by
    revert hi; revert i; decide
  simp only [encode, Instr.format, Instr.opcode, BitVec.getLsbD_and, BitVec.getLsbD_append, BitVec.getLsbD_setWidth, hm]
  by_cases h : i < 8
  · simp [h, hi]
  · simp only [h, decide_false, Bool.and_false, BitVec.getLsbD_of_ge (0x10 : Byte) i (by omega)]

theorem i2cOwnAddr (addr7 : Nat) : Statement (.i2cOwnAddr addr7) := by
  intro h
  simp only [Instr.wellFormed, decide_eq_true_eq] at h
  exact commandWord_and_mask _ _ _ _ _ _ _ _ (Format.mask .a7) (by decide) (small_field _ 7 _ _ h (by decide)) (zero_field _ _)
    rfl rfl rfl rfl rfl

theorem i2cStart : Statement .i2cStart := fun _ => by decide

theorem i2cAddress (addr dir : Nat) : Statement (.i2cAddress addr dir) := fun _ =>
  commandWord_and_mask _ _ _ _ _ _ _ _ (Format.mask .ab) (by decide) (free_field _ _ _ (by decide)) (free_field _ _ _ (by decide))
    rfl rfl rfl rfl rfl

theorem i2cSend (byte : Byte) : Statement (.i2cSend byte) := fun _ => formatA_row _ _

theorem i2cReadAck : Statement .i2cReadAck := fun _ => by decide

theorem i2cReadNack : Statement .i2cReadNack := fun _ => by decide

theorem i2cStop : Statement .i2cStop := fun _ => by decide

theorem i2cStatus : Statement .i2cStatus := fun _ => by decide

end Sys2Proof.Laws.EncodedWordFitsRow
end

