-- ==== Sys2Proof/Laws/Step.lean ====
section
/-! SUPPORT. What one step can do, said once: by turn, by the phase of the block, and by the command decoded. Proofs over
all steps cite `step_cases`, `blockStep_cases` and `exec_effect` instead of unfolding the step. -/

namespace Sys2Proof.Machine

/-- What using up one choice of the environment changes (log 1). -/
theorem turnTaken_eq (s : State) :
    s.turnTaken = { s with turns := s.turns.tail, draws := if s.turns = [] then s.draws + 1 else s.draws } := by
  unfold State.turnTaken
  rcases h : s.turns with _ | ⟨t, rest⟩ <;> simp

/-- What one step can do, by whose turn it is (20 R49 to R54; 70 R133). -/
theorem step_cases (s t : State) (h : step s = .next t) :
    (∃ w, s.nextTurn = .host w ∧ t = hostStep w s.turnTaken) ∨
    (∃ b, s.nextTurn = .spiCompletes b ∧ t = spiCompletionStep b s.turnTaken) ∨
    (∃ st b, s.nextTurn = .twiCompletes st b ∧ t = twiCompletionStep st b s.turnTaken) ∨
    (∃ st, s.nextTurn = .stopSettles st ∧ t = stopSettleStep st s.turnTaken) ∨
    (s.nextTurn = .reset ∧ t = resetStep s.turnTaken) ∨
    (s.nextTurn = .block ∧ blockStep s.turnTaken = .next t) := by
  unfold step at h
  cases hn : s.nextTurn with
  | host w => rw [hn] at h; cases h; exact .inl ⟨w, rfl, rfl⟩
  | spiCompletes b => rw [hn] at h; cases h; exact .inr (.inl ⟨b, rfl, rfl⟩)
  | twiCompletes st b => rw [hn] at h; cases h; exact .inr (.inr (.inl ⟨st, b, rfl, rfl⟩))
  | stopSettles st => rw [hn] at h; cases h; exact .inr (.inr (.inr (.inl ⟨st, rfl, rfl⟩)))
  | reset => rw [hn] at h; cases h; exact .inr (.inr (.inr (.inr (.inl ⟨rfl, rfl⟩))))
  | block => rw [hn] at h; exact .inr (.inr (.inr (.inr (.inr ⟨rfl, h⟩))))

/-- The block may decode the command in `CMD`: it is ready, or the stop it waits for has settled (30 R62; 43 R97). -/
abbrev MayDecode (s : State) : Prop := s.phase = .ready ∨ (s.phase = .waitSettle ∧ s.twsto = false)

/-- What the block's step can do: nothing, complete a held command, enter the fault of an illegal word, or run the command
decoded (20 R53, R54; 30 R62). -/
theorem blockStep_cases (s t : State) (h : blockStep s = .next t) :
    t = s ∨
    (∃ k, s.phase = .waitSpi k ∧ s.spif = true ∧ t = finishSpi k s) ∨
    (∃ k, s.phase = .waitTwi k ∧ s.twint = true ∧ t = finishTwi k s) ∨
    (∃ w e, MayDecode s ∧ s.cmd = some w ∧ decode w = .illegal e ∧ t = raiseFault .illegalCommand s) ∨
    (∃ w i, MayDecode s ∧ s.cmd = some w ∧ decode w = .command i ∧ exec i s = .next t) := by
  have run : MayDecode s → runCommand s = .next t → t = s ∨
      (∃ w e, MayDecode s ∧ s.cmd = some w ∧ decode w = .illegal e ∧ t = raiseFault .illegalCommand s) ∨
      (∃ w i, MayDecode s ∧ s.cmd = some w ∧ decode w = .command i ∧ exec i s = .next t) := by
    intro hm hr
    rcases hc : s.cmd with _ | w
    · rw [runCommand_none s hc] at hr; cases hr; exact .inl rfl
    · rcases hd : decode w with i | e
      · rw [runCommand_command s w i hc hd] at hr; exact .inr (.inr ⟨w, i, hm, rfl, hd, hr⟩)
      · rw [runCommand_illegal s w e hc hd] at hr; cases hr; exact .inr (.inl ⟨w, e, hm, rfl, hd, rfl⟩)
  have lift : ∀ {p q r r' : Prop}, (p ∨ q) → p ∨ r ∨ r' ∨ q := by tauto
  rcases hp : s.phase with _ | k | k | _ | _
  · rw [blockStep_ready s hp] at h
    exact lift (run (.inl hp) h)
  · rw [blockStep_waitSpi s k hp] at h
    cases hi : s.spif <;> rw [hi] at h <;> cases h
    · exact .inl rfl
    · exact .inr (.inl ⟨k, rfl, rfl, rfl⟩)
  · rw [blockStep_waitTwi s k hp] at h
    cases hi : s.twint <;> rw [hi] at h <;> cases h
    · exact .inl rfl
    · exact .inr (.inr (.inl ⟨k, rfl, rfl, rfl⟩))
  · rw [blockStep_waitSettle s hp] at h
    cases hs : s.twsto <;> rw [hs] at h
    · exact lift (run (.inr ⟨hp, hs⟩) h)
    · cases h; exact .inl rfl
  · rw [blockStep_faulted s hp] at h; cases h; exact .inl rfl

/-- The state in which a settling I2C command checks its sequence: `s` itself outside `StopPending`, or `s` with
`BUS` = `Idle` once the stop has settled (43 R97). -/
inductive Settled (s : State) : State → Prop where
  | direct (h : s.bus ≠ .stopPending) : Settled s s
  | afterStop (hb : s.bus = .stopPending) (hp : s.phase = .waitSettle) (ht : s.twsto = false) :
      Settled s { s with bus := .idle }

/-- Everything a command can do in the step that decodes it. -/
inductive Effect (s : State) : State → Prop where
  | error (e : ErrorCode) : Effect s (returnError e s)
  | value (v : Byte) : Effect s (returnOk v s)
  | configure (p : Byte) (master x2 : Bool) : Effect s (configureSpi p master x2 s)
  | drive (l : Nat) (level : CsLevel) : Effect s (returnOk 0x00 (driveCs l level s))
  | issueSpi (k : SpiWait) (b : Byte) : Effect s (issueSpi k b s)
  | ownAddr (v : Byte) : Effect s (returnOk 0x00 { s with twar := v })
  | status : Effect s (returnOk (decodeStatus s.twsr) s)
  | settle (hb : s.bus = .stopPending) (h : ¬ (s.phase = .waitSettle ∧ s.twsto = false)) :
      Effect s { s with phase := .waitSettle }
  | violation (u : State) (h : Settled s u) : Effect s (raiseFault .sequenceViolation u)
  | init (u : State) (h : Settled s u) (hu : u.bus = .idle) (br : Nat) : Effect s (initTwi br u)
  | start (u : State) (h : Settled s u) (hu : u.bus = .idle ∨ u.bus = .dataPhase) : Effect s (issueTwi .start 0xA4 u)
  | address (u : State) (h : Settled s u) (hu : u.bus = .startSent) (d : Direction) (v : Byte) :
      Effect s (issueTwi (.address d) 0x84 (writeTwdr v u))
  | send (u : State) (h : Settled s u) (hu : u.bus = .addressed .write ∨ u.bus = .dataPhase) (v : Byte) :
      Effect s (issueTwi .sendByte 0x84 (writeTwdr v u))
  | readAck (u : State) (h : Settled s u) (hu : u.bus = .addressed .read ∨ u.bus = .dataPhase) :
      Effect s (issueTwi .readAck 0xC4 u)
  | readNack (u : State) (h : Settled s u) (hu : u.bus = .addressed .read ∨ u.bus = .dataPhase) :
      Effect s (issueTwi .readNack 0x84 u)
  | stop (u : State) (h : Settled s u) (hu : u.bus.inTransaction = true) :
      Effect s (returnOk 0x00 { writeTwcr 0x94 u with bus := .stopPending })

/-- What a settling command can do: hold for the stop, fault, or do its body (43 R96, R97). -/
theorem prologue_effect (valid : BusState → Bool) (body : State → State) (s : State)
    (h : ∀ u, Settled s u → valid u.bus = true → Effect s (body u)) : Effect s (prologue valid body s) := by
  have check : ∀ u, Settled s u → Effect s (checkSequence valid body u) := by
    intro u hu
    rcases checkSequence_cases valid body u with ⟨hv, he⟩ | ⟨-, he⟩ <;> rw [he]
    · exact h u hu hv
    · exact .violation u hu
  rcases prologue_cases valid body s with ⟨hb, hn, he⟩ | ⟨hb, hp, ht, he⟩ | ⟨hb, he⟩ <;> rw [he]
  · exact .settle hb hn
  · exact check _ (.afterStop hb hp ht)
  · exact check _ (.direct hb)

theorem validForSend_cases (b : BusState) (h : validForSend b = true) : b = .addressed .write ∨ b = .dataPhase := by
  rcases b with _ | _ | (_ | _) | _ | _ <;> simp_all [validForSend]

theorem validForRead_cases (b : BusState) (h : validForRead b = true) : b = .addressed .read ∨ b = .dataPhase := by
  rcases b with _ | _ | (_ | _) | _ | _ <;> simp_all [validForRead]

theorem validForStart_cases (b : BusState) (h : validForStart b = true) : b = .idle ∨ b = .dataPhase := by
  cases b <;> simp_all [validForStart]

theorem validForInit_cases (b : BusState) (h : validForInit b = true) : b = .idle := by
  cases b <;> simp_all [validForInit]

theorem validForAddress_cases (b : BusState) (h : validForAddress b = true) : b = .startSent := by
  cases b <;> simp_all [validForAddress]

theorem validForStop_cases (b : BusState) (h : validForStop b = true) : b.inTransaction = true := by
  cases b <;> simp_all [validForStop, BusState.inTransaction]

/-- The step that decodes a command does one of the things `Effect` lists. -/
theorem exec_effect (i : Instr) (s t : State) (h : exec i s = .next t) : Effect s t := by
  have eq : ∀ u, (Host.Outcome.next u : Host.Outcome State Fault Refusal) = .next t → Effect s u → Effect s t := by
    intro u hu he; cases hu; exact he
  cases i with
  | spiValidate d x2 =>
    refine eq _ h ?_
    split
    · exact .value _
    · exact .error _
  | spiLookup c m => exact eq _ h (.value _)
  | spiConfigure d m ma x2 lsb ie pr =>
    refine eq _ h ?_
    split
    · exact .error _
    · exact .configure _ _ _
  | spiSelect l =>
    refine eq _ h ?_
    unfold driveLine
    split
    · exact .drive _ _
    · exact .error _
  | spiDeselect l =>
    refine eq _ h ?_
    unfold driveLine
    split
    · exact .drive _ _
    · exact .error _
  | spiTransfer b => exact eq _ h (.issueSpi _ _)
  | spiSend b => exact eq _ h (.issueSpi _ _)
  | i2cInit hz =>
    refine eq _ h ?_
    split
    · exact .error _
    · exact prologue_effect _ _ _ fun u hu hv => .init u hu (validForInit_cases _ hv) _
  | i2cOwnAddr a => exact eq _ h (.ownAddr _)
  | i2cStart => exact eq _ h (prologue_effect _ _ _ fun u hu hv => .start u hu (validForStart_cases _ hv))
  | i2cAddress a d =>
    refine eq _ h ?_
    split
    · split
      · exact .error _
      · exact prologue_effect _ _ _ fun u hu hv => .address u hu (validForAddress_cases _ hv) _ _
    · exact .error _
  | i2cSend b => exact eq _ h (prologue_effect _ _ _ fun u hu hv => .send u hu (validForSend_cases _ hv) _)
  | i2cReadAck => exact eq _ h (prologue_effect _ _ _ fun u hu hv => .readAck u hu (validForRead_cases _ hv))
  | i2cReadNack => exact eq _ h (prologue_effect _ _ _ fun u hu hv => .readNack u hu (validForRead_cases _ hv))
  | i2cStop => exact eq _ h (prologue_effect _ _ _ fun u hu hv => .stop u hu (validForStop_cases _ hv))
  | i2cStatus => exact eq _ h .status


/-! The completion steps, by what they leave. -/

/-- The SPI completion step once `SPDR_RX` holds a value (42 R90 to R92). -/
theorem finishSpi_of_filled (k : SpiWait) (s : State) (h : s.spdrRxFilled = true) :
    finishSpi k s =
      returnOk (if k = .transfer then s.spdrRx else 0x00) { s with spsr := spsrDataRead s.spsr } := by
  cases k <;> simp only [finishSpi, memRead_spsr, memRead_spdr, readSpdr_of_filled s h] <;> rfl

/-- The SPI completion step while `SPDR_RX` holds none: the byte is left open (93 K1.18). -/
theorem finishSpi_of_empty (k : SpiWait) (s : State) (h : s.spdrRxFilled = false) :
    finishSpi k s =
      returnOk (if k = .transfer then Config.freeByte s.draws else 0x00)
        { s with draws := s.draws + 1, spsr := spsrDataRead s.spsr } := by
  cases k <;> simp only [finishSpi, memRead_spsr, memRead_spdr, readSpdr_of_empty s h] <;> rfl

/-- The TWI completion step (43 R104, R106 to R109): the result and the bus state, nothing else. -/
theorem finishTwi_eq (k : TwiWait) (s : State) :
    finishTwi k s = match k with
      | .start => returnOk (decodeStatus s.twsr) { s with bus := .startSent }
      | .address dir => returnOk (decodeStatus s.twsr) { s with bus := .addressed dir }
      | .sendByte => returnOk (decodeStatus s.twsr) { s with bus := .dataPhase }
      | .readAck => returnOk s.twdr { s with bus := .dataPhase }
      | .readNack => returnOk s.twdr { s with bus := .dataPhase } := by
  cases k <;> rfl

/-! Runs of a few steps. -/

/-- A run of `n + 1` steps is its first step and a run of `n`. -/
theorem run_succ_of_next (M : Host.Core) (n : Nat) (s t : M.State) (h : M.step s = .next t) :
    M.run (n + 1) s = M.run n t := by
  simp only [Host.Core.run, h]

/-- A run of two steps, from its steps. -/
theorem run_two (s t u : State) (h1 : step s = .next t) (h2 : step t = .next u) :
    Host.Core.run Sys2Proof.core 2 s = .next u :=
  (run_succ_of_next Sys2Proof.core 1 s t h1).trans (run_succ_of_next Sys2Proof.core 0 t u h2)

/-- A run of three steps, from its steps. -/
theorem run_three (s t u v : State) (h1 : step s = .next t) (h2 : step t = .next u) (h3 : step u = .next v) :
    Host.Core.run Sys2Proof.core 3 s = .next v :=
  (run_succ_of_next Sys2Proof.core 2 s t h1).trans (run_two t u v h2 h3)

end Sys2Proof.Machine
end

