-- ==== Sys2Proof/Machine/Assembler.lean ====
section
/-! DEFINITION. The spec's assembly syntax (30 R67) and its three pseudo-instructions (30 R68). It stands beside the
machine, which takes command words only. -/

namespace Sys2Proof.Machine

/-- The pseudo-instructions (30 R68). -/
inductive Pseudo where
  | i2cAddrW (addr : Nat)
  | i2cAddrR (addr : Nat)
  | i2cRestart
  deriving DecidableEq, Repr

/-- Each pseudo-instruction stands for one command (30 R68). -/
def expandPseudo : Pseudo → Instr
  | .i2cAddrW addr => .i2cAddress addr 0
  | .i2cAddrR addr => .i2cAddress addr 1
  | .i2cRestart => .i2cStart

/-- A blank between the parts of a line. -/
def isBlank (c : Char) : Bool := c == ' ' || c == '\t'

/-- A text without the blanks around it. -/
def trimBlanks (l : List Char) : List Char := ((l.dropWhile isBlank).reverse.dropWhile isBlank).reverse

/-- The parts of a text between its commas. -/
def splitCommas : List Char → List (List Char)
  | [] => [[]]
  | c :: rest =>
    match splitCommas rest with
    | part :: parts => if c == ',' then [] :: part :: parts else (c :: part) :: parts
    | [] => [[c]]

/-- The value of a digit in a base up to 16. -/
def digitValue (base : Nat) (c : Char) : Option Nat :=
  let v :=
    if '0'.toNat ≤ c.toNat ∧ c.toNat ≤ '9'.toNat then some (c.toNat - '0'.toNat)
    else if 'a'.toNat ≤ c.toNat ∧ c.toNat ≤ 'f'.toNat then some (c.toNat - 'a'.toNat + 10)
    else if 'A'.toNat ≤ c.toNat ∧ c.toNat ≤ 'F'.toNat then some (c.toNat - 'A'.toNat + 10)
    else none
  v.bind fun d => if d < base then some d else none

/-- The value of a string of digits, after digits worth `acc`. -/
def digitsValue (base acc : Nat) : List Char → Option Nat
  | [] => some acc
  | c :: rest => (digitValue base c).bind fun d => digitsValue base (acc * base + d) rest

/-- A number: decimal, or hexadecimal after `0x` (30 R67). -/
def numberOf : List Char → Option Nat
  | '0' :: 'x' :: d :: rest => digitsValue 16 0 (d :: rest)
  | d :: rest => digitsValue 10 0 (d :: rest)
  | [] => none

/-- A number that fits a byte. -/
def byteOf (l : List Char) : Option Byte :=
  (numberOf l).bind fun n => if n < 256 then some (BitVec.ofNat 8 n) else none

/-- The keywords of `spi.configure`, in any order, each at most once (30 R67; log 14). -/
def configKeywordsOk (keywords : List String) : Bool :=
  decide keywords.Nodup && keywords.all fun k => ["master", "x2", "lsb", "ie"].contains k

/-- The command with no operand, if none is written. -/
def bare (i : Instr) (operands : List (List Char)) : Option Instr := if operands = [] then some i else none

/-- The command with one number operand. -/
def oneNumber (f : Nat → Instr) : List (List Char) → Option Instr
  | [a] => (numberOf a).map f
  | _ => none

/-- The command with one byte operand. -/
def oneByte (f : Byte → Instr) : List (List Char) → Option Instr
  | [a] => (byteOf a).map f
  | _ => none

/-- The command with two number operands. -/
def twoNumbers (f : Nat → Nat → Instr) : List (List Char) → Option Instr
  | [a, b] => (numberOf a).bind fun x => (numberOf b).map fun y => f x y
  | _ => none

/-- `spi.validate <divider> [, x2]`. -/
def validateLine : List (List Char) → Option Instr
  | [d] => (numberOf d).map fun n => .spiValidate n false
  | [d, k] => if String.ofList k = "x2" then (numberOf d).map fun n => .spiValidate n true else none
  | _ => none

/-- `spi.configure <divider>, <mode> [, master] [, x2] [, lsb] [, ie]`, or `spi.configure null`. -/
def configureLine : List (List Char) → Option Instr
  | [k] => if String.ofList k = "null" then some (.spiConfigure 0 0 false false false false false) else none
  | d :: m :: rest =>
    let keywords := rest.map String.ofList
    if configKeywordsOk keywords then
      (numberOf d).bind fun divider => (numberOf m).map fun mode =>
        .spiConfigure divider mode (keywords.contains "master") (keywords.contains "x2") (keywords.contains "lsb")
          (keywords.contains "ie") true
    else none
  | [] => none

/-- The command of a mnemonic and its operands, pseudo-instructions included (30 R67, R68). -/
def commandOf (mnemonic : String) (operands : List (List Char)) : Option Instr :=
  match mnemonic with
  | "spi.validate" => validateLine operands
  | "spi.lookup" => twoNumbers .spiLookup operands
  | "spi.configure" => configureLine operands
  | "spi.select" => oneNumber .spiSelect operands
  | "spi.deselect" => oneNumber .spiDeselect operands
  | "spi.transfer" => oneByte .spiTransfer operands
  | "spi.send" => oneByte .spiSend operands
  | "i2c.init" => oneNumber .i2cInit operands
  | "i2c.ownaddr" => oneNumber .i2cOwnAddr operands
  | "i2c.start" => bare .i2cStart operands
  | "i2c.address" => twoNumbers .i2cAddress operands
  | "i2c.send" => oneByte .i2cSend operands
  | "i2c.readack" => bare .i2cReadAck operands
  | "i2c.readnack" => bare .i2cReadNack operands
  | "i2c.stop" => bare .i2cStop operands
  | "i2c.status" => bare .i2cStatus operands
  | "i2c.addrw" => oneNumber (fun a => expandPseudo (.i2cAddrW a)) operands
  | "i2c.addrr" => oneNumber (fun a => expandPseudo (.i2cAddrR a)) operands
  | "i2c.restart" => bare (expandPseudo .i2cRestart) operands
  | _ => none

/-- The command word of one line; none for an assembly error, an operand that does not fit its field among them (30 R67). -/
def assemble (line : String) : Option Word :=
  let text := trimBlanks line.toList
  let mnemonic := text.takeWhile fun c => !isBlank c
  let tail := trimBlanks (text.dropWhile fun c => !isBlank c)
  let operands := if tail = [] then [] else (splitCommas tail).map trimBlanks
  (commandOf (String.ofList mnemonic) operands).bind fun i => if i.wellFormed then some (encode i) else none

end Sys2Proof.Machine
end

