-- ==== Sys2Proof/Tests/Slice0.lean ====
section
/-! SUPPORT. The model's own tests: ill-formed terms refused, words written out from the spec's encodings, one-step vectors
of spec file 95, and for every statement with hypotheses a state and operands that meet them together. -/

namespace Sys2Proof.Tests

open Sys2Proof Sys2Proof.Machine

/-- The state after reset with this word in `CMD` and these choices of the environment. -/
def ready (w : Word) (turns : List Turn) : State := { State.reset with cmd := some w, turns := turns }

/-- The state after reset with the sequencer in this bus state and `TWINT` = 1, `TWEN` = 1. -/
def inBus (b : BusState) : State := { State.reset with bus := b, twcr := 0x84 }

/-- The state a step answers. -/
def landed (o : Host.Outcome State Fault Refusal) : State :=
  match o with
  | .next t => t
  | .fault r => nomatch r
  | .refused _ => { State.reset with phase := .faulted }

/-- The state one step from the word presented after reset. -/
def ran (w : Word) : State := landed (step (ready w [.block]))

/-! ### Well-formedness (30 R60): one ill-formed term for each check -/

theorem test_wf_validate_divider : (Instr.spiValidate 256 false).wellFormed = false := by decide
theorem test_wf_lookup_class : (Instr.spiLookup 4 0).wellFormed = false := by decide
theorem test_wf_lookup_mode : (Instr.spiLookup 0 4).wellFormed = false := by decide
theorem test_wf_configure_divider :
    (Instr.spiConfigure 256 0 true false false false true).wellFormed = false := by decide
theorem test_wf_configure_mode :
    (Instr.spiConfigure 4 256 true false false false true).wellFormed = false := by decide
theorem test_wf_select_line : (Instr.spiSelect 256).wellFormed = false := by decide
theorem test_wf_deselect_line : (Instr.spiDeselect 256).wellFormed = false := by decide
theorem test_wf_init_target : (Instr.i2cInit 16777216).wellFormed = false := by decide
theorem test_wf_ownaddr_address : (Instr.i2cOwnAddr 128).wellFormed = false := by decide
theorem test_wf_address_address : (Instr.i2cAddress 256 0).wellFormed = false := by decide
theorem test_wf_address_direction : (Instr.i2cAddress 1 256).wellFormed = false := by decide
theorem test_wf_rejected_operands_are_encodable :
    (Instr.spiConfigure 3 9 true false false false true).wellFormed = true ∧
    (Instr.i2cAddress 200 7).wellFormed = true := by decide

/-! ### Decoding: every constructor from a word written out from 30 R58 to R61 -/

theorem test_decode_validate : decode 0x02000801 = .command (.spiValidate 8 true) := by decide
theorem test_decode_lookup : decode 0x00020302 = .command (.spiLookup 3 2) := by decide
theorem test_decode_configure :
    decode 0x11000403 = .command (.spiConfigure 4 0 true false false false true) ∧
    decode 0x12020203 = .command (.spiConfigure 2 2 false true false false true) ∧
    decode 0x1D038003 = .command (.spiConfigure 128 3 true false true true true) ∧
    decode 0x03091003 = .command (.spiConfigure 16 9 true true false false false) := by decide
theorem test_decode_select : decode 0x00000104 = .command (.spiSelect 1) := by decide
theorem test_decode_deselect : decode 0x0000FF05 = .command (.spiDeselect 255) := by decide
theorem test_decode_transfer : decode 0x0000A506 = .command (.spiTransfer 0xA5) := by decide
theorem test_decode_send : decode 0x00009F07 = .command (.spiSend 0x9F) := by decide
theorem test_decode_init :
    decode 0x0186A010 = .command (.i2cInit 100000) ∧ decode 0xFFFFFF10 = .command (.i2cInit 16777215) := by decide
theorem test_decode_ownaddr : decode 0x00004211 = .command (.i2cOwnAddr 0x42) := by decide
theorem test_decode_start : decode 0x00000012 = .command .i2cStart := by decide
theorem test_decode_address : decode 0x00014013 = .command (.i2cAddress 64 1) := by decide
theorem test_decode_i2c_send : decode 0x00001214 = .command (.i2cSend 0x12) := by decide
theorem test_decode_readack : decode 0x00000015 = .command .i2cReadAck := by decide
theorem test_decode_readnack : decode 0x00000016 = .command .i2cReadNack := by decide
theorem test_decode_stop : decode 0x00000017 = .command .i2cStop := by decide
theorem test_decode_status : decode 0x00000018 = .command .i2cStatus := by decide

/-- The illegal words of 95 L2.11 with an unassigned opcode. -/
theorem test_decode_unassigned :
    decode 0x00000000 = .illegal .unassignedOpcode ∧ decode 0x00000008 = .illegal .unassignedOpcode ∧
    decode 0x00000019 = .illegal .unassignedOpcode ∧ decode 0x000000FF = .illegal .unassignedOpcode := by decide

/-- The illegal words of 95 L2.11 with a constrained bit set. -/
theorem test_decode_constrained :
    decode 0x00000112 = .illegal .constrainedBits ∧ decode 0x20000003 = .illegal .constrainedBits ∧
    decode 0x01000801 = .illegal .constrainedBits ∧ decode 0x00040302 = .illegal .constrainedBits ∧
    decode 0x00000402 = .illegal .constrainedBits ∧ decode 0x00008011 = .illegal .constrainedBits ∧
    decode 0x00010004 = .illegal .constrainedBits ∧ decode 0x80000014 = .illegal .constrainedBits ∧
    decode 0x01000013 = .illegal .constrainedBits := by decide

theorem test_bytes_little_endian :
    decodeBytes [0x06, 0xA5, 0x00, 0x00, 0x18] = (.command (.spiTransfer 0xA5), [0x18]) := by decide
theorem test_decode_table_word : decodeTableWord 32 0x0186A010 = some (.i2cInit 100000) := by decide
theorem test_decode_table_word_refused : decodeTableWord 32 0x00000112 = none := by decide

/-- The first command after reset is the word placed by `withFetchWord` (95 L1.3). -/
theorem test_first_step_runs_the_word : (landed (step (State.reset.withFetchWord 32 0x11000403))).spcr = 0x50 := by
  decide

/-! ### The assembler (30 R67, R68) -/

theorem test_assemble_init : assemble "i2c.init 100000" = some 0x0186A010 := by decide
theorem test_assemble_configure : assemble "spi.configure 4, 0, lsb, master" = some 0x15000403 := by decide
theorem test_assemble_null : assemble "spi.configure null" = some 0x00000003 := by decide
theorem test_assemble_pseudo : assemble "i2c.addrr 0x50" = some 0x00015013 ∧ assemble "i2c.restart" = some 0x12 := by decide
theorem test_assemble_out_of_range : assemble "spi.lookup 4, 0" = none := by decide

/-! ### One-step vectors of file 95 -/

theorem test_validate : (ran 0x02000801).resultCode = 0x00 ∧ (ran 0x00000801).resultCode = 0x02 := by decide
theorem test_validate_64 : (ran 0x02004001).resultCode = 0x00 ∧ (ran 0x00004001).resultCode = 0x00 := by decide
theorem test_lookup : (ran 0x00010202).resultValue = 0x06 ∧ (ran 0x00030002).resultValue = 0x0C := by decide
theorem test_configure_pattern :
    (ran 0x1D038003).resultValue = 0xFF ∧ (ran 0x12020203).spcr = 0x48 ∧ (ran 0x12020203).spsr = 0x01 ∧
    (ran 0x12020203).events = [] ∧ (ran 0x11000403).events = [.spiMasterPinDir] := by decide
theorem test_configure_errors :
    (ran 0x03091003).resultCode = 0x03 ∧ (ran 0x11040303).resultCode = 0x02 ∧ (ran 0x11040403).resultCode = 0x01 ∧
    (ran 0x11040403).spcr = 0x00 := by decide
theorem test_select : (ran 0x00000004).csLevel 0 = some .low ∧ (ran 0x00000104).resultCode = 0x07 := by decide
theorem test_deselect : (ran 0x00000005).csLevel 0 = some .high ∧ (ran 0x0000FF05).resultCode = 0x07 := by decide
theorem test_transfer_issue :
    (landed (exec (.spiTransfer 0xA5) { State.reset with spcr := 0x50 })).spiPending = true ∧
    (ran 0x0000A506).spiPending = false ∧ (ran 0x0000A506).phase = .waitSpi .transfer := by decide
theorem test_transfer_completion :
    (finishSpi .transfer { State.reset with spsr := 0xC1, spdrRx := 0x3C, spdrRxFilled := true }).resultValue = 0x3C ∧
    (finishSpi .transfer { State.reset with spsr := 0xC1, spdrRx := 0x3C, spdrRxFilled := true }).spsr = 0x01 := by decide
theorem test_send_issue : (ran 0x00009F07).spdrTx = 0x9F ∧ (ran 0x00009F07).phase = .waitSpi .send := by decide
theorem test_send_completion :
    (finishSpi .send { State.reset with spsr := 0x80, spdrRx := 0x12, spdrRxFilled := true }).resultValue = 0x00 := by decide
theorem test_init :
    (ran 0x0186A010).twbr = 0x48 ∧ (ran 0x0186A010).twcr = 0x04 ∧ (ran 0x00783110).resultValue = 252 ∧
    (ran 0x0E5C7810).resultValue = 0 := by decide
theorem test_init_errors :
    (ran 0x00753010).resultCode = 0x06 ∧ (ran 0xFFFFFF10).resultCode = 0x06 ∧ (ran 0x00000010).resultCode = 0x06 := by
  decide
theorem test_ownaddr : (ran 0x00004211).twar = 0x84 := by decide
theorem test_start_issue :
    (landed (exec .i2cStart (inBus .dataPhase))).twcr = 0x24 ∧
    (landed (exec .i2cStart (inBus .dataPhase))).twiPending = .startAction := by decide
theorem test_start_in_start_sent : (landed (exec .i2cStart (inBus .startSent))).fault = some .sequenceViolation := by decide
theorem test_address_issue :
    (landed (exec (.i2cAddress 64 1) (inBus .startSent))).twdr = 0x81 ∧
    (landed (exec (.i2cAddress 64 1) (inBus .startSent))).twiPending = .byteAction := by decide
theorem test_address_errors :
    (ran 0x00000013).resultCode = 0x04 ∧ (ran 0x00020013).resultCode = 0x04 ∧ (ran 0x00027F13).resultCode = 0x05 ∧
    (ran 0x00014013).fault = some .sequenceViolation := by decide
theorem test_i2c_send_issue : (landed (exec (.i2cSend 0x12) (inBus (.addressed .write)))).twdr = 0x12 := by decide
theorem test_i2c_send_in_idle : (ran 0x00001214).fault = some .sequenceViolation ∧ (ran 0x00001214).faultCmd = 0x1214 := by
  decide
theorem test_readack_issue : (landed (exec .i2cReadAck (inBus (.addressed .read)))).twcr = 0x44 := by decide
theorem test_readnack_issue : (landed (exec .i2cReadNack (inBus .dataPhase))).twcr = 0x04 := by decide
theorem test_readnack_completion : (finishTwi .readNack { inBus .dataPhase with twdr := 0xC3 }).resultValue = 0xC3 := by
  decide
theorem test_stop :
    (landed (exec .i2cStop (inBus .dataPhase))).twcr = 0x14 ∧
    (landed (exec .i2cStop (inBus .dataPhase))).bus = .stopPending := by decide
theorem test_status :
    (ran 0x00000018).resultValue = 0xF8 ∧
    (landed (exec .i2cStatus { State.reset with twsr := 0x42 })).resultValue = 0x40 := by decide

/-! ### Register accesses and peripheral steps (95 L2.5) -/

theorem test_write_spsr : (memWrite .spsr 0xFF State.reset).spsr = 0x01 := by decide
theorem test_write_twsr : (memWrite .twsr 0xFF { State.reset with twsr := 0x08 }).twsr = 0x0B := by decide
theorem test_write_twcr_stop :
    (memWrite .twcr 0x94 { State.reset with twcr := 0x84 }).twcr = 0x14 ∧
    (memWrite .twcr 0x94 { State.reset with twcr := 0x84 }).twiPending = .none := by decide
theorem test_stop_settles :
    (stopSettleStep 0b11111 { State.reset with twcr := 0x14 }).twcr = 0x04 ∧
    (stopSettleStep 0b11111 { State.reset with twcr := 0x14, twsr := 0x02 }).twsr = 0xFA := by decide
theorem test_twi_completes :
    (twiCompletionStep 0b00001 0x77 { State.reset with twcr := 0x24, twiPending := .startAction }).twcr = 0xA4 ∧
    (twiCompletionStep 0b00001 0x77 { State.reset with twcr := 0x24, twiPending := .startAction }).twdr = 0xFF ∧
    (twiCompletionStep 0b00001 0x77 { State.reset with twcr := 0x24, twiPending := .startAction }).twsr = 0x08 := by decide

/-! ### Witnesses: for each statement with hypotheses, states and operands that meet all of them together -/

theorem witness_DecodeUndoesEncode :
    (Instr.spiConfigure 255 255 true true true true true).wellFormed = true ∧
    (Instr.i2cInit 16777215).wellFormed = true := by decide

theorem witness_EncodeUndoesDecode : decode 0x1D038003 = .command (.spiConfigure 128 3 true false true true true) := by
  decide

theorem witness_DecodingSelectsExactlyOneRow :
    ((0x00000012, 0xFFFFFFFF) : Word × Word) ∈ commandRows ∧ (0x00000012 : Word) &&& 0xFFFFFFFF = 0x00000012 ∧
    decode 0x00000012 = .command .i2cStart := by decide

theorem witness_StepRunsDecodedCommand_ready :
    (ready 0x12 [.block]).nextTurn = .block ∧ (ready 0x12 [.block]).cmd = some 0x12 ∧
    decode 0x12 = .command .i2cStart ∧ (ready 0x12 [.block]).phase = .ready := by decide

theorem witness_StepRunsDecodedCommand_settled :
    let s := { ready 0x12 [.block] with phase := .waitSettle, bus := .stopPending, twcr := 0x04 }
    s.nextTurn = .block ∧ s.cmd = some 0x12 ∧ decode 0x12 = .command .i2cStart ∧
    s.phase = .waitSettle ∧ s.twcr[4] = false := by decide

/-- The four clauses, each at the ends of its range. -/
theorem witness_IllegalWordEntersFault :
    (ready 0x00 [.block]).turns = .block :: [] ∧ (ready 0x00 [.block]).phase = .ready ∧
    (ready 0x00 [.block]).cmd = some 0x00 ∧
    ((0x12345600 : Word).extractLsb' 0 8).toNat = 0x00 ∧
    0x08 ≤ ((0x08 : Word).extractLsb' 0 8).toNat ∧ ((0x0F : Word).extractLsb' 0 8).toNat ≤ 0x0F ∧
    0x19 ≤ ((0x19 : Word).extractLsb' 0 8).toNat ∧ 0x19 ≤ ((0xFF : Word).extractLsb' 0 8).toNat ∧
    (∃ r ∈ commandRows, (0x00000112 : Word) &&& 0xFF = r.1 ∧ (0x00000112 : Word) &&& r.2 ≠ r.1) := by decide

theorem witness_LookupReturnsTableCell : (0 < 4 ∧ 0 < 4) ∧ (3 < 4 ∧ 3 < 4) := by decide

theorem witness_ConfigureProgramsSpi :
    (LegalDivider true 2 ∧ 0 ≤ 3) ∧ (LegalDivider true 64 ∧ 3 ≤ 3) ∧ (LegalDivider false 4 ∧ 0 ≤ 3) ∧
    (LegalDivider false 128 ∧ 3 ≤ 3) := by decide

theorem witness_ConfigureRejectsInOrder : ¬ LegalDivider true 128 ∧ ¬ LegalDivider false 2 ∧ 3 < 4 := by decide

theorem witness_SelectAndDeselectDriveTheLine : 0 ∈ State.reset.params.csLines ∧ CsRecord State.reset := by decide

theorem witness_ChipSelectDoesNotToggle :
    0 ∈ State.reset.params.csLines ∧ CsRecord State.reset ∧
    (∃ t u, exec (.spiDeselect 0) State.reset = .next t ∧ exec (.spiDeselect 0) t = .next u) ∧
    (∃ t u, exec (.spiSelect 0) State.reset = .next t ∧ exec (.spiSelect 0) t = .next u) :=
  ⟨by decide, by decide, ⟨_, _, rfl, rfl⟩, ⟨_, _, rfl, rfl⟩⟩

theorem witness_UnknownLineIsReported : 1 ∉ State.reset.params.csLines := by decide

theorem witness_SpiCompletionReturnsAndClears :
    ∀ k : SpiWait, let s := { ready 0xA506 [.block] with phase := .waitSpi k, spsr := 0x80, spdrRxFilled := true }
    s.turns = .block :: [] ∧ s.phase = .waitSpi k ∧ s.spsr[7] = true ∧ SpiHandshake s := by
  intro k; cases k <;> decide

theorem witness_TransferExchangesOneByte :
    let s := { ready 0xA506 [.block, .spiCompletes 0x3C, .block] with spcr := 0x50 }
    s.phase = .ready ∧ s.cmd = some 0xA506 ∧ decode 0xA506 = .command (.spiTransfer 0xA5) ∧ s.spcr[6] = true ∧
    s.spiPending = false ∧ s.turns = .block :: .spiCompletes 0x3C :: .block :: [] := by decide

theorem witness_StaleByteReturnsAtOnce :
    let s := { ready 0x2206 [.block, .block] with spcr := 0x40, spsr := 0x80, spdrRx := 0x11, spdrRxFilled := true }
    s.phase = .ready ∧ s.cmd = some 0x2206 ∧ decode 0x2206 = .command (.spiTransfer 0x22) ∧ s.spcr[6] = true ∧
    s.spiPending = false ∧ s.spsr[7] = true ∧ SpiHandshake s ∧ s.turns = .block :: .block :: [] := by decide

theorem witness_TransferWithSpiDisabledHangs :
    let s := { ready 0xA506 [.spiCompletes 0x3C] with phase := .waitSpi .transfer }
    s.phase = .waitSpi .transfer ∧ s.spcr[6] = false ∧ s.spiPending = false ∧ s.spsr[7] = false ∧
    s.nextTurn ≠ .reset ∧ ∃ t, step s = .next t :=
  ⟨rfl, rfl, rfl, rfl, by decide, _, rfl⟩

/-- The largest and the smallest quotient that fit. -/
theorem witness_InitProgramsBitRate :
    State.reset.bus = .idle ∧ BitRateFits State.reset.params.coreClockHz 1000000 ∧
    BitRateFits State.reset.params.coreClockHz 30361 := by decide

/-- A zero target, the first quotient too small and the first too large. -/
theorem witness_InitReportsBadBitRate :
    ¬ BitRateFits State.reset.params.coreClockHz 0 ∧ ¬ BitRateFits State.reset.params.coreClockHz 1000001 ∧
    ¬ BitRateFits State.reset.params.coreClockHz 30303 := by decide

theorem witness_OwnAddrStoresAddress : 0 < 128 ∧ 127 < 128 := by decide

theorem witness_StartIssues : (inBus .idle).bus = .idle ∧ (inBus .dataPhase).bus = .dataPhase := by decide

theorem witness_AddressIssues :
    (1 ≤ 1 ∧ 1 ≤ 127) ∧ (1 ≤ 127 ∧ 127 ≤ 127) ∧ (inBus .startSent).bus = .startSent ∧
    (inBus .startSent).twcr[7] = true := by decide

theorem witness_AddressReportsBadOperands : (0 = 0) ∧ (127 < 128) ∧ (1 < 2) := by decide

theorem witness_SendIssues :
    (inBus (.addressed .write)).bus = .addressed .write ∧ (inBus (.addressed .write)).twcr[7] = true ∧
    (inBus .dataPhase).bus = .dataPhase ∧ (inBus .dataPhase).twcr[7] = true := by decide

theorem witness_ReadsIssue :
    (inBus (.addressed .read)).bus = .addressed .read ∧ (inBus .dataPhase).bus = .dataPhase := by decide

theorem witness_StopDoesNotBlock :
    (inBus .startSent).bus = .startSent ∧ (inBus (.addressed .write)).bus = .addressed .write ∧
    (inBus (.addressed .read)).bus = .addressed .read ∧ (inBus .dataPhase).bus = .dataPhase := by decide

theorem witness_TwiCompletionReturnsAndMovesBus :
    ∀ k : TwiWait, let s := { inBus .startSent with phase := .waitTwi k, turns := [.block] }
    s.turns = .block :: [] ∧ s.phase = .waitTwi k ∧ s.twcr[7] = true := by
  intro k
  refine ⟨rfl, rfl, ?_⟩
  show (0x84 : Byte)[7] = true
  decide

theorem witness_StartReturnsDrawnStatus :
    ∀ b ∈ [BusState.idle, .dataPhase], let s := { ready 0x12 [.block, .twiCompletes 1 0, .block] with bus := b }
    s.phase = .ready ∧ s.cmd = some 0x12 ∧ decode 0x12 = .command .i2cStart ∧ (s.bus = .idle ∨ s.bus = .dataPhase) ∧
    s.turns = .block :: .twiCompletes 1 0 :: .block :: [] := by decide

theorem witness_ReadReturnsDrawnByte :
    ∀ b ∈ [BusState.addressed .read, .dataPhase],
    let s := { ready 0x15 [.block, .twiCompletes 0b01010 0x5A, .block] with bus := b }
    s.phase = .ready ∧ s.cmd = some 0x15 ∧ decode 0x15 = .command .i2cReadAck ∧
    (s.bus = .addressed .read ∨ s.bus = .dataPhase) ∧
    s.turns = .block :: .twiCompletes 0b01010 0x5A :: .block :: [] := by decide

theorem witness_InvalidBusStateEntersFault :
    (ready 0x1214 [.block]).cmd = some 0x1214 ∧ settles State.reset.params.coreClockHz (.i2cSend 0x12) = true ∧
    (ready 0x1214 [.block]).bus ≠ .stopPending ∧ (ready 0x1214 [.block]).bus ∉ validBefore (.i2cSend 0x12) := by decide

theorem witness_InvalidBusStateEntersFault_settled :
    let s := { ready 0x1214 [.block] with bus := .stopPending, phase := .waitSettle }
    s.cmd = some 0x1214 ∧ settles s.params.coreClockHz (.i2cSend 0x12) = true ∧ s.bus = .stopPending ∧
    s.phase = .waitSettle ∧ s.twcr[4] = false ∧ .idle ∉ validBefore (.i2cSend 0x12) := by decide

theorem witness_StopPendingSettlesFirst :
    settles State.reset.params.coreClockHz .i2cStart = true ∧
    ({ ready 0x12 [.block] with bus := .stopPending } : State).bus = .stopPending ∧
    ({ ready 0x12 [.block] with bus := .stopPending } : State).phase = .ready ∧
    ({ ready 0x12 [.block] with bus := .stopPending, phase := .waitSettle } : State).phase = .waitSettle ∧
    ({ ready 0x12 [.block] with bus := .stopPending, phase := .waitSettle } : State).twcr[4] = false := by decide

theorem witness_StartAfterStopSettlesThenIssues :
    let s := { ready 0x12 [.block, .stopSettles 31, .block] with bus := .stopPending, twcr := 0x14 }
    s.phase = .ready ∧ s.cmd = some 0x12 ∧ decode 0x12 = .command .i2cStart ∧ s.bus = .stopPending ∧
    s.twcr[4] = true ∧ s.twiPending = .none ∧ s.turns = .block :: .stopSettles 31 :: .block :: [] := by decide

theorem witness_SendAfterStopSettlesThenFaults :
    let s := { ready 0x1214 [.block, .stopSettles 31, .block] with bus := .stopPending, twcr := 0x14 }
    s.phase = .ready ∧ s.cmd = some 0x1214 ∧ decode 0x1214 = .command (.i2cSend 0x12) ∧ s.bus = .stopPending ∧
    s.twcr[4] = true ∧ s.twiPending = .none ∧ s.turns = .block :: .stopSettles 31 :: .block :: [] := by decide

/-- A command runs, so the status register could have mattered. -/
theorem witness_StatusSteersNothing :
    ∃ t, step (ready 0x12 [.block]) = .next t ∧ t.phase = .waitTwi .start := ⟨_, rfl, rfl⟩

theorem witness_ReadSideEffects :
    Reg.twsr ≠ .spdr ∧ ({ State.reset with spdrRxFilled := true } : State).spdrRxFilled = true := by decide

theorem witness_DataWriteStoresOrCollides :
    ({ State.reset with twcr := 0x84 } : State).twcr[7] = true ∧ State.reset.twcr[7] = false := by decide

theorem witness_SpiPeripheralStep :
    ({ State.reset with turns := [.spiCompletes 0x3C] } : State).turns = .spiCompletes 0x3C :: [] := by decide

theorem witness_TwiPeripheralSteps :
    ({ State.reset with turns := [.twiCompletes 1 0x3C] } : State).turns = .twiCompletes 1 0x3C :: [] ∧
    ({ State.reset with turns := [.stopSettles 31] } : State).turns = .stopSettles 31 :: [] := by decide

theorem witness_HostWritesCommandOnlyWhenReady :
    ({ State.reset with turns := [.host 0x12] } : State).turns = .host 0x12 :: [] := by decide

theorem witness_HeldBlockHasNoStep :
    ∀ p ∈ [Phase.waitSpi .transfer, .waitTwi .start, .waitSettle],
    let s := { ready 0x12 [.block] with phase := p, twcr := 0x14 }
    s.held = true ∧ s.turns = .block :: [] := by decide

theorem witness_OnlyTheBlockMovesItsRegisters :
    let s := { State.reset with turns := [.host 0x12] }
    s.nextTurn ≠ .block ∧ s.nextTurn ≠ .reset ∧ ∃ t, step s = .next t ∧ t.cmd = some 0x12 :=
  ⟨by decide, by decide, _, rfl, rfl⟩

/-- Each disjunct of the conclusion is met: an issue step, a success and an error. -/
theorem witness_ResultsComeWithCompletion :
    (∃ t, step (ready 0x12 [.block]) = .next t ∧ t.ci = 0) ∧
    (∃ t, step (ready 0x10202 [.block]) = .next t ∧ t.ci = 1 ∧ t.resultCode = 0x00) ∧
    (∃ t, step (ready 0x104 [.block]) = .next t ∧ t.ci = 1 ∧ t.resultCode ≠ 0x00) :=
  ⟨⟨_, rfl, rfl⟩, ⟨_, rfl, rfl, rfl⟩, ⟨_, rfl, rfl, by decide⟩⟩

theorem witness_ErrorsChangeNothingElse :
    ∃ t, exec (.spiSelect 1) State.reset = .next t ∧ t.ci ≠ State.reset.ci ∧ t.resultCode ≠ 0x00 :=
  ⟨_, rfl, by decide, by decide⟩

theorem witness_CommandsKeepToTheirPeripheral :
    (∃ t, exec (.spiTransfer 0xA5) State.reset = .next t ∧ isSpi (.spiTransfer 0xA5) = true) ∧
    (∃ t, exec .i2cStart State.reset = .next t ∧ isSpi .i2cStart = false) := ⟨⟨_, rfl, rfl⟩, ⟨_, rfl, rfl⟩⟩

theorem witness_FaultIsStickyUntilReset :
    let s := { ready 0x00 [.host 0x12] with phase := .faulted, fault := some .illegalCommand }
    s.phase = .faulted ∧ s.nextTurn ≠ .reset ∧ ∃ t, step s = .next t := ⟨rfl, by decide, _, rfl⟩

theorem witness_ResetRestoresEveryRegister :
    ({ ready 0x00 [.reset] with phase := .faulted } : State).turns = .reset :: [] := by decide

theorem witness_ResetMeetsInvariants : defaultParams.periphReset.twcr[0] = false := by decide

/-- A state in an open transaction that meets every invariant, and takes a step: the hypotheses of each `StepKeeps…`. -/
theorem witness_invariants :
    let s := { inBus .startSent with cmd := some 0x14013, turns := [.block] }
    ReservedBitsClear s ∧ CommandRecord s ∧ TwiHandshake s ∧ SpiHandshake s ∧ CsRecord s ∧ TwiInterruptOff s ∧
    s.params.periphReset.twcr[0] = false ∧ s.nextTurn ≠ .reset ∧
    ∃ t, step s = .next t ∧ t.phase = .waitTwi (.address .read) :=
  ⟨by decide, by decide, by decide, by decide, by decide, by decide, by decide, by decide, _, rfl, rfl⟩

end Sys2Proof.Tests
end

