-- ==== Sys2Proof/Proofs/RegisterAccess.lean ====
section
/-! PROOFS. Register accesses (spec 20 R41 to R47): what a read and a write of a named register do. -/

namespace Sys2Proof.Machine

/-- A read of `SPDR` while `SPDR_RX` holds a value, with the cleared flags as a mask (20 R41). -/
theorem memRead_spdr_of_filled (s : State) (h : s.spdrRxFilled = true) :
    memRead .spdr s = (s.spdrRx, { s with spsr := s.spsr &&& 0x3F }) := by
  rw [memRead_spdr, readSpdr_of_filled s h, spsrDataRead_eq]

/-- A read of `SPDR` clears `SPIF` and `WCOL` whether or not `SPDR_RX` holds a value (20 R41). -/
theorem memRead_spdr_spsr (s : State) : (memRead .spdr s).2.spsr = s.spsr &&& 0x3F := by
  rw [memRead_spdr, readSpdr_spsr, spsrDataRead_eq]

/-- The three cases of a write of `SPDR` in one state: the collision sets `WCOL` and leaves the transfer pending, and
only `SPE` = 1 starts one (20 R45). -/
theorem writeSpdr_eq (v : Byte) (s : State) :
    writeSpdr v s = { s with
      spdrTx := v, spsr := if s.spiPending then s.spsr ||| 0x40 else s.spsr,
      spiPending := s.spiPending || s.spcr[6] } := by
  have hspe : s.spe = s.spcr[6] := rfl
  obtain ⟨hpending, hwrite⟩ | ⟨hpending, henabled, hwrite⟩ | ⟨hpending, hdisabled, hwrite⟩ := writeSpdr_cases v s
  · rw [hwrite, spsrCollided_eq]
    simp [hpending]
  · rw [hwrite]
    simp [hpending, ← hspe, henabled]
  · rw [hwrite]
    simp [hpending, ← hspe, hdisabled]

/-- Settles O38: each read is the law of its register. -/
theorem readSideEffects : Obligations.ReadSideEffects := by
  intro s
  exact ⟨fun r hr => memRead_of_ne_spdr r s hr, memRead_spdr_of_filled s, memRead_spdr_spsr s⟩

/-- Settles O39: each write is the law of its register, `SPDR`'s with its three cases joined. -/
theorem writeSideEffects : Obligations.WriteSideEffects := by
  intro v s
  refine ⟨memWrite_spcr v s, ?spsr, ?spdr, ?twsr⟩
  case spsr => rw [memWrite_spsr, spsrWritten_eq]
  case spdr => rw [memWrite_spdr, writeSpdr_eq]
  case twsr => rw [memWrite_twsr, twsrWritten]

end Sys2Proof.Machine
end

