-- ==== Sys2Proof/Proofs/IllegalWords.lean ====
section
/-! PROOFS. Illegal words (spec 30 R61 to R63): a word that decodes fits a row of the opcode table, so a word whose
opcode has no row, or which does not fit its opcode's row, does not decode. -/

namespace Sys2Proof

/-- The row check gives a command only if the word fits the row of that command (30 R62). -/
theorem checkedRow_eq_command_iff (w : Word) (i j : Instr) :
    checkedRow w j = .command i ↔ j = i ∧ w &&& j.format.mask = j.opcode.setWidth 32 := by
  unfold checkedRow
  split <;> simp_all

/-- A word that decodes fits the row of its command: each opcode of the decoder checks its own row (30 R62). -/
theorem and_mask_of_decode (w : Word) (i : Instr) (h : decode w = .command i) :
    w &&& i.format.mask = i.opcode.setWidth 32 := by
  unfold decode at h
  split at h
  case h_17 => cases h
  all_goals
    obtain ⟨rfl, hrow⟩ := (checkedRow_eq_command_iff w i _).mp h
    exact hrow

/-- Bits 7:0 of a word are its value under the mask `0xFF`. -/
theorem and_lowByte_toNat (w : Word) : (w &&& 0xFF).toNat = (w.extractLsb' 0 8).toNat := by
  rw [BitVec.toNat_and, BitVec.extractLsb'_toNat, Nat.shiftRight_zero]
  exact Nat.and_two_pow_sub_one_eq_mod w.toNat 8

end Sys2Proof

namespace Sys2Proof.Machine

/-- The opcode and mask of every command are a row of the opcode table (30 R61). -/
theorem row_mem_commandRows (i : Instr) : (i.opcode.setWidth 32, i.format.mask) ∈ commandRows := by
  cases i <;> simp [commandRows, Instr.opcode, Instr.format, Format.mask]

/-- Every match value is an assigned opcode (30 R61, R63). -/
theorem opcode_range_of_mem_commandRows : ∀ r ∈ commandRows,
    (0x01 ≤ r.1.toNat ∧ r.1.toNat ≤ 0x07) ∨ (0x10 ≤ r.1.toNat ∧ r.1.toNat ≤ 0x18) := by simp [commandRows]

/-- No opcode has two rows (30 R62). -/
theorem nodup_commandRows_match : (commandRows.map Prod.fst).Nodup := by decide

/-- Every row fixes all bits of the opcode field, and its match value has no other bit (30 R58, R59). -/
theorem lowByte_of_mem_commandRows : ∀ r ∈ commandRows, r.2 &&& 0xFF = 0xFF ∧ r.1 &&& 0xFF = r.1 := by
  simp [commandRows]

/-- A word that fits a row has the row's match value as its opcode. -/
theorem and_lowByte_of_fits {w : Word} {r : Word × Word} (hr : r ∈ commandRows) (hfit : w &&& r.2 = r.1) :
    w &&& 0xFF = r.1 := by
  obtain ⟨hmask, hmatch⟩ := lowByte_of_mem_commandRows r hr
  calc w &&& 0xFF
    _ = (w &&& r.2) &&& 0xFF := by rw [BitVec.and_assoc, hmask]
    _ = r.1 := by rw [hfit, hmatch]

/-- A word that decodes fits a row of the opcode table (30 R62). -/
theorem fits_row_of_decode {w : Word} {i : Instr} (h : decode w = .command i) : ∃ r ∈ commandRows, w &&& r.2 = r.1 :=
  ⟨_, row_mem_commandRows i, and_mask_of_decode w i h⟩

/-- A word that decodes has an assigned opcode. -/
theorem opcode_range_of_decode {w : Word} {i : Instr} (h : decode w = .command i) :
    (0x01 ≤ (w.extractLsb' 0 8).toNat ∧ (w.extractLsb' 0 8).toNat ≤ 0x07) ∨
    (0x10 ≤ (w.extractLsb' 0 8).toNat ∧ (w.extractLsb' 0 8).toNat ≤ 0x18) := by
  obtain ⟨r, hr, hfit⟩ := fits_row_of_decode h
  rw [← and_lowByte_toNat, and_lowByte_of_fits hr hfit]
  exact opcode_range_of_mem_commandRows r hr

/-- A word that decodes fits the row of its opcode, so it has no constrained bit set. -/
theorem fits_opcode_row_of_decode {w : Word} {i : Instr} (h : decode w = .command i) {q : Word × Word}
    (hq : q ∈ commandRows) (hop : w &&& 0xFF = q.1) : w &&& q.2 = q.1 := by
  obtain ⟨r, hr, hfit⟩ := fits_row_of_decode h
  have hrq : r = q :=
    List.inj_on_of_nodup_map nodup_commandRows_match hr hq ((and_lowByte_of_fits hr hfit).symm.trans hop)
  exact hrq ▸ hfit

/-- A word with an opcode that has no row, or which does not fit its opcode's row, is illegal (30 R63). -/
theorem decode_illegal (w : Word)
    (h : (w.extractLsb' 0 8).toNat = 0x00 ∨
      (0x08 ≤ (w.extractLsb' 0 8).toNat ∧ (w.extractLsb' 0 8).toNat ≤ 0x0F) ∨
      0x19 ≤ (w.extractLsb' 0 8).toNat ∨
      (∃ r ∈ commandRows, w &&& 0xFF = r.1 ∧ w &&& r.2 ≠ r.1)) :
    ∃ e, decode w = .illegal e := by
  cases hd : decode w with
  | illegal e => exact ⟨e, rfl⟩
  | command i =>
    have hrange := opcode_range_of_decode hd
    obtain hop | hop | hop | ⟨r, hr, hop, hbits⟩ := h
    · omega
    · omega
    · omega
    · exact absurd (fits_opcode_row_of_decode hd hr hop) hbits

/-- A block turn on an illegal word is the fault entry, which records that word (30 R63; 60 R120). -/
theorem step_of_illegal {s : State} {w : Word} {e : DecodeError} {rest : List Turn} (hturns : s.turns = .block :: rest)
    (hphase : s.phase = .ready) (hcmd : s.cmd = some w) (hd : decode w = .illegal e) :
    step s = .next { s with
      turns := rest, phase := .faulted, fault := some .illegalCommand, faultCmd := w } := by
  calc step s
    _ = blockStep { s with turns := rest } := step_of_turn s .block rest hturns
    _ = runCommand { s with turns := rest } := blockStep_ready _ hphase
    _ = .next (raiseFault .illegalCommand { s with turns := rest }) := runCommand_illegal _ w e hcmd hd
    _ = .next { s with turns := rest, phase := .faulted, fault := some .illegalCommand, faultCmd := w } := by
      simp [raiseFault, hcmd]

/-- Settles O7: the word does not decode, so the block's step is the fault entry. -/
theorem illegalWordEntersFault : Obligations.IllegalWordEntersFault := by
  intro s w rest hturns hphase hcmd hword
  obtain ⟨e, hd⟩ := decode_illegal w hword
  exact step_of_illegal hturns hphase hcmd hd

end Sys2Proof.Machine
end

