-- ==== Sys2Proof/Proofs/ChipSelect.lean ====
section
/-! PROOFS. Chip select (spec 42 R87 to R89): what driving a line does to the record of line levels, and that driving it
again does nothing more to it. -/

namespace Sys2Proof.Machine

/-- Only the last level driven on a line stays (10 R20). -/
theorem csDriven_csDriven (cs : List (Nat × CsLevel)) (l : Nat) (first last : CsLevel) :
    csDriven (csDriven cs l first) l last = csDriven cs l last := by
  unfold csDriven
  rw [List.map_map]
  refine List.map_congr_left fun entry _ => ?_
  by_cases h : entry.1 = l <;> simp [h]

/-- In a state that records the lines of `CS_LINES`, each of them has a level (10 R20). -/
theorem exists_csLevel_of_mem {l : Nat} {s : State} (hl : l ∈ s.params.csLines) (hrec : CsRecord s) :
    ∃ level, s.csLevel l = some level := by
  rw [← hrec] at hl
  obtain ⟨entry, hentry, rfl⟩ := List.mem_map.mp hl
  exact Option.isSome_iff_exists.mp (List.lookup_isSome_iff.mpr ⟨entry, hentry, beq_self_eq_true _⟩)

/-- The level of a line is read off the record of levels alone. -/
theorem csLevel_congr {s t : State} (h : t.cs = s.cs) (l : Nat) : t.csLevel l = s.csLevel l :=
  congrArg (List.lookup l) h

theorem hasLine_iff (l : Nat) (s : State) : s.hasLine l = true ↔ l ∈ s.params.csLines := List.contains_iff_mem

/-- Driving a line of `CS_LINES` succeeds (42 R87, R88). -/
theorem driveLine_of_mem {l : Nat} {s : State} (h : l ∈ s.params.csLines) (level : CsLevel) :
    driveLine l level s = returnOk 0x00 (driveCs l level s) := if_pos ((hasLine_iff l s).mpr h)

/-- Driving any other line is the error `BadCsLine` (42 R87, R88). -/
theorem driveLine_of_not_mem {l : Nat} {s : State} (h : l ∉ s.params.csLines) (level : CsLevel) :
    driveLine l level s = returnError .badCsLine s := if_neg (mt (hasLine_iff l s).mp h)

@[simp] theorem driveLine_params (l : Nat) (level : CsLevel) (s : State) :
    (driveLine l level s).params = s.params := by
  by_cases h : l ∈ s.params.csLines
  · rw [driveLine_of_mem h, returnOk_params, driveCs_params]
  · rw [driveLine_of_not_mem h, returnError_params]

/-- Driving a line of `CS_LINES` leaves it at the level driven, whatever it was before (42 R89). -/
theorem driveLine_csLevel {l : Nat} {s : State} (hl : l ∈ s.params.csLines) (hrec : CsRecord s) (level : CsLevel) :
    (driveLine l level s).csLevel l = some level := by
  obtain ⟨before, hbefore⟩ := exists_csLevel_of_mem hl hrec
  calc (driveLine l level s).csLevel l
    _ = (csDriven s.cs l level).lookup l := by rw [driveLine_of_mem hl]; rfl
    _ = (s.csLevel l).map fun _ => level := by rw [csDriven_lookup, if_pos rfl, State.csLevel]
    _ = some level := by rw [hbefore, Option.map_some]

/-- Driving a line to the same level again changes no line (42 R89). -/
theorem driveLine_driveLine_cs (l : Nat) (level : CsLevel) (s : State) :
    (driveLine l level (driveLine l level s)).cs = (driveLine l level s).cs := by
  by_cases h : l ∈ s.params.csLines
  · have hagain : l ∈ (driveLine l level s).params.csLines := by rwa [driveLine_params]
    rw [driveLine_of_mem hagain, driveLine_of_mem h]
    simp only [returnOk_cs, driveCs_cs, csDriven_csDriven]
  · have hagain : l ∉ (driveLine l level s).params.csLines := by rwa [driveLine_params]
    rw [driveLine_of_not_mem hagain, returnError_cs]

/-- Driving a line twice to one level leaves every line as the first time did, and that line at the level (42 R89). -/
theorem driveLine_twice {l : Nat} {level : CsLevel} {s t u : State} (ht : driveLine l level s = t)
    (hu : driveLine l level t = u) :
    u.cs = t.cs ∧
    (l ∈ s.params.csLines → CsRecord s → t.csLevel l = some level ∧ u.csLevel l = some level) := by
  subst ht hu
  have hsame := driveLine_driveLine_cs l level s
  refine ⟨hsame, fun hl hrec => ?_⟩
  have hdriven := driveLine_csLevel hl hrec level
  exact ⟨hdriven, (csLevel_congr hsame l).trans hdriven⟩

/-- SPI.SELECT drives its line low (42 R87). -/
theorem exec_spiSelect_eq_next_iff (l : Nat) (s t : State) :
    exec (.spiSelect l) s = .next t ↔ driveLine l .low s = t := by
  rw [exec_spiSelect, execSpiSelect, Host.Outcome.next.injEq]

/-- SPI.DESELECT drives its line high (42 R88). -/
theorem exec_spiDeselect_eq_next_iff (l : Nat) (s t : State) :
    exec (.spiDeselect l) s = .next t ↔ driveLine l .high s = t := by
  rw [exec_spiDeselect, execSpiDeselect, Host.Outcome.next.injEq]

/-- Settles O13: each command drives its line to a level of its own, and driving it there twice is driving it once. -/
theorem chipSelectDoesNotToggle : Obligations.ChipSelectDoesNotToggle := by
  intro l s t u
  simp only [exec_spiSelect_eq_next_iff, exec_spiDeselect_eq_next_iff]
  exact ⟨driveLine_twice, driveLine_twice⟩

end Sys2Proof.Machine
end

/-! PROOFS. The I2C sequencer (spec 43): every settling command is one shape, a prologue that asks the 'valid before'
set of R94 about the bus state and then a body, so the fault of R96 is proved once for all seven; and the issue step of
I2C.ADDRESS (R105, R106). -/

namespace Sys2Proof.Machine

/-! The sequence check and the prologue, by the case they are in. -/

/-- In a bus state of the set the check goes on to the body (43 R96). -/
theorem checkSequence_of_valid {valid : BusState → Bool} {s : State} (h : valid s.bus = true) (body : State → State) :
    checkSequence valid body s = body s := if_pos h

/-- In any other bus state the check is the fault entry (43 R96). -/
theorem checkSequence_of_invalid {valid : BusState → Bool} {s : State} (h : valid s.bus = false)
    (body : State → State) : checkSequence valid body s = raiseFault .sequenceViolation s :=
  if_neg (Bool.eq_false_iff.mp h)

/-- Once there is no stop left to settle, the prologue is the check in the state it then sees (43 R97). -/
theorem prologue_of_settled {s u : State} (h : Settled s u) (valid : BusState → Bool) (body : State → State) :
    prologue valid body s = checkSequence valid body u := by
  unfold prologue
  cases h with
  | direct hbus => rw [if_neg hbus]
  | afterStop hbus hphase hstop => rw [if_pos hbus, if_pos ⟨hphase, hstop⟩, setBus]

/-- Fault entry records the word of the command in progress and changes nothing else (60 R120). -/
theorem raiseFault_of_cmd {s : State} {w : Word} (h : s.cmd = some w) (c : FaultCause) :
    raiseFault c s = { s with phase := .faulted, fault := some c, faultCmd := w } := by
  rw [raiseFault, h, Option.getD_some]

/-! The sets of R94 and the argument checks. -/

/-- The sequence check that reads the 'valid before' column of R94's table. -/
def validByTable (i : Instr) (b : BusState) : Bool := decide (b ∈ validBefore i)

theorem validByTable_eq_false {i : Instr} {b : BusState} (h : b ∉ validBefore i) : validByTable i b = false :=
  decide_eq_false h

/-- Two sequence checks are one if they agree in each bus state (10 R16). -/
theorem busCheck_ext {f g : BusState → Bool} (hidle : f .idle = g .idle) (hstart : f .startSent = g .startSent)
    (haddressed : ∀ d, f (.addressed d) = g (.addressed d)) (hdata : f .dataPhase = g .dataPhase)
    (hstop : f .stopPending = g .stopPending) : f = g := by
  funext b
  cases b with
  | idle => exact hidle
  | startSent => exact hstart
  | addressed d => exact haddressed d
  | dataPhase => exact hdata
  | stopPending => exact hstop

theorem validForInit_eq (hz : Nat) : validForInit = validByTable (.i2cInit hz) :=
  busCheck_ext rfl rfl (fun _ => rfl) rfl rfl

theorem validForStart_eq : validForStart = validByTable .i2cStart :=
  busCheck_ext rfl rfl (fun _ => rfl) rfl rfl

theorem validForAddress_eq (a d : Nat) : validForAddress = validByTable (.i2cAddress a d) :=
  busCheck_ext rfl rfl (fun _ => rfl) rfl rfl

theorem validForSend_eq (b : Byte) : validForSend = validByTable (.i2cSend b) :=
  busCheck_ext rfl rfl (fun d => by cases d <;> rfl) rfl rfl

theorem validForReadAck_eq : validForRead = validByTable .i2cReadAck :=
  busCheck_ext rfl rfl (fun d => by cases d <;> rfl) rfl rfl

theorem validForReadNack_eq : validForRead = validByTable .i2cReadNack :=
  busCheck_ext rfl rfl (fun d => by cases d <;> rfl) rfl rfl

theorem validForStop_eq : validForStop = validByTable .i2cStop :=
  busCheck_ext rfl rfl (fun d => by cases d <;> rfl) rfl rfl

/-- Where the bit-rate formula gives an 8-bit value, it is the bit rate (43 R100). -/
theorem bitrate_of_fits {coreClockHz targetHz : Nat} (h : BitRateFits coreClockHz targetHz) :
    bitrate coreClockHz targetHz = some ((coreClockHz / targetHz - 16) / 2) := by
  obtain ⟨htarget, hlow, hhigh⟩ := h
  simp [bitrate, twiPrescaler, htarget, Nat.not_lt.mpr hlow, Nat.not_lt.mpr hhigh]

/-- The operand 0 is write and 1 is read (43 R105). -/
theorem directionOf_operand (dir : Direction) : directionOf (if dir = .read then 1 else 0) = some dir := by
  cases dir <;> rfl

/-- Every operand of one bit names a direction (43 R106). -/
theorem exists_directionOf {d : Nat} (h : d ≤ 1) : ∃ dir, directionOf d = some dir := by
  obtain rfl | rfl : d = 0 ∨ d = 1 := by omega
  · exact ⟨.write, rfl⟩
  · exact ⟨.read, rfl⟩

/-! The settling commands as a prologue and a body. -/

/-- I2C.ADDRESS once both arguments pass (43 R106). -/
theorem exec_i2cAddress_of_valid {a d : Nat} {dir : Direction} (hlow : 1 ≤ a) (hhigh : a ≤ 127)
    (hdir : directionOf d = some dir) (s : State) :
    exec (.i2cAddress a d) s = .next
      (prologue validForAddress (fun u => issueTwi (.address dir) 0x84 (writeTwdr (slaByte a dir) u)) s) := by
  have haddress : validSlaveAddress a = true := by simp [validSlaveAddress, hlow, hhigh]
  simp only [exec_i2cAddress, execI2cAddress, haddress, if_true, hdir, memWrite_twdr]

/-- Each of the seven settling commands, its arguments in order, is the prologue over its set of R94's table and some
body (43 R96, R97). -/
theorem exec_eq_prologue_of_settles {i : Instr} {coreClockHz : Nat} (h : settles coreClockHz i = true) :
    ∃ body, ∀ s : State, s.params.coreClockHz = coreClockHz → exec i s = .next (prologue (validByTable i) body s) := by
  cases i with
  | i2cInit hz =>
    have hrate := bitrate_of_fits (of_decide_eq_true h)
    refine ⟨initTwi ((coreClockHz / hz - 16) / 2), fun s hclock => ?_⟩
    rw [exec_i2cInit, execI2cInit, hclock, hrate, ← validForInit_eq]
  | i2cAddress a d =>
    obtain ⟨hlow, hhigh, hbit⟩ := of_decide_eq_true h
    obtain ⟨dir, hdir⟩ := exists_directionOf hbit
    rw [← validForAddress_eq]
    exact ⟨_, fun s _ => exec_i2cAddress_of_valid hlow hhigh hdir s⟩
  | i2cStart =>
    rw [← validForStart_eq]
    exact ⟨_, fun s _ => exec_i2cStart s⟩
  | i2cSend b =>
    rw [← validForSend_eq]
    exact ⟨_, fun s _ => exec_i2cSend b s⟩
  | i2cReadAck =>
    rw [← validForReadAck_eq]
    exact ⟨_, fun s _ => exec_i2cReadAck s⟩
  | i2cReadNack =>
    rw [← validForReadNack_eq]
    exact ⟨_, fun s _ => exec_i2cReadNack s⟩
  | i2cStop =>
    rw [← validForStop_eq]
    exact ⟨_, fun s _ => exec_i2cStop s⟩
  | spiValidate | spiLookup | spiConfigure | spiSelect | spiDeselect | spiTransfer | spiSend | i2cOwnAddr | i2cStatus =>
    cases h

/-- A settling command is the fault entry in a settled state whose bus state is not in its set (43 R96; 60 R120). -/
theorem exec_of_bus_not_mem_validBefore {i : Instr} {s u : State} {w : Word}
    (hsettles : settles s.params.coreClockHz i = true) (hu : Settled s u) (hinvalid : u.bus ∉ validBefore i)
    (hcmd : u.cmd = some w) :
    exec i s = .next { u with phase := .faulted, fault := some .sequenceViolation, faultCmd := w } := by
  obtain ⟨body, hexec⟩ := exec_eq_prologue_of_settles hsettles
  rw [hexec s rfl, prologue_of_settled hu, checkSequence_of_invalid (validByTable_eq_false hinvalid),
    raiseFault_of_cmd hcmd]

/-- Settles O33: the set is asked about `BUS` itself or, after settling, about `Idle`. -/
theorem invalidBusStateEntersFault : Obligations.InvalidBusStateEntersFault := by
  intro i s w hcmd hsettles
  refine ⟨fun hbus hinvalid => ?direct, fun hbus hphase hstop hinvalid => ?afterStop⟩
  case direct => exact exec_of_bus_not_mem_validBefore hsettles (.direct hbus) hinvalid hcmd
  case afterStop => exact exec_of_bus_not_mem_validBefore hsettles (.afterStop hbus hphase hstop) hinvalid hcmd

/-! The issue step of a command that sends a byte. -/

/-- The address byte as a number: twice the address, plus the direction bit (43 R105). -/
theorem slaByte_eq (a : Nat) (dir : Direction) :
    slaByte a dir = BitVec.ofNat 8 (2 * a + if dir = .read then 1 else 0) := by
  have hshift : BitVec.ofNat 8 a <<< 1 = BitVec.ofNat 8 (2 * a) := by
    apply BitVec.eq_of_toNat_eq
    simp only [BitVec.toNat_shiftLeft, BitVec.toNat_ofNat, Nat.shiftLeft_eq]
    omega
  have hbit : dir.bit = BitVec.ofNat 8 (if dir = .read then 1 else 0) := by cases dir <;> rfl
  have hbound : (if dir = .read then 1 else 0) < 2 ^ 1 := by split <;> decide
  rw [slaByte, hshift, hbit, ← BitVec.ofNat_or, ← Nat.two_pow_add_eq_or_of_lt hbound a, pow_one]

/-- With `TWINT` = 1, a data byte written to `TWDR` and then 0x84 to `TWCR`: the byte is stored without a collision, the
write of `TWCR` triggers a byte action, and the block holds for it (20 R46, R48; 43 R98). -/
theorem issueTwi_writeTwdr {s : State} (h : s.twcr[7] = true) (k : TwiWait) (v : Byte) :
    issueTwi k 0x84 (writeTwdr v s) = { s with
      phase := .waitTwi k, twdr := v, twcr := 0x04 ||| (s.twcr &&& 0x02), twiPending := .byteAction } := by
  have hstored : writeTwdr v s = { s with twdr := v, twcr := s.twcr &&& 0xF7 } := by
    rw [← twcrDataWritten_of_set s.twcr h]
    exact if_pos h
  have hcontrol : twcrWritten (s.twcr &&& 0xF7) 0x84 = 0x04 ||| (s.twcr &&& 0x02) := by
    rw [twcrWritten_of_set _ _ (by decide), BitVec.and_assoc]
    rfl
  have htriggered : twiTriggered s.twiPending 0x84 = .byteAction := by simp [twiTriggered]
  rw [issueTwi, memWrite_twcr, hstored, writeTwcr, hcontrol, htriggered, enterPhase]

/-- Settles O24: the arguments pass, `StartSent` is the command's set, and the body is the issue step of a byte. -/
theorem addressIssues : Obligations.AddressIssues := by
  intro a dir s hlow hhigh hbus htwint
  have hnostop : s.bus ≠ .stopPending := by rw [hbus]; decide
  have hvalid : validForAddress s.bus = true := by rw [hbus]; rfl
  rw [exec_i2cAddress_of_valid hlow hhigh (directionOf_operand dir), prologue_of_settled (.direct hnostop),
    checkSequence_of_valid hvalid, issueTwi_writeTwdr htwint, slaByte_eq]

end Sys2Proof.Machine

/-! PROOFS. Encoding and decoding (spec 30 R58 to R62): the encoded word of a command decodes to it; a word that fits a
row has its constrained fields 0, so the command read from it encodes to that word again; and each row of the opcode table
is the one row its opcode selects. -/

namespace Sys2Proof

/-! From a command to its word and back. -/

/-- The encoded word of a well-formed command passes the check of its row (30 R62). -/
theorem checkedRow_encode {i : Instr} (h : i.wellFormed = true) : checkedRow (encode i) i = .command i := by
  have hfits : Laws.EncodedWordFitsRow.Statement i := by
    cases i with
    | spiValidate d x2 => exact Laws.EncodedWordFitsRow.spiValidate d x2
    | spiLookup c m => exact Laws.EncodedWordFitsRow.spiLookup c m
    | spiConfigure d m ma x2 lsb ie pr => exact Laws.EncodedWordFitsRow.spiConfigure d m ma x2 lsb ie pr
    | spiSelect l => exact Laws.EncodedWordFitsRow.spiSelect l
    | spiDeselect l => exact Laws.EncodedWordFitsRow.spiDeselect l
    | spiTransfer b => exact Laws.EncodedWordFitsRow.spiTransfer b
    | spiSend b => exact Laws.EncodedWordFitsRow.spiSend b
    | i2cInit hz => exact Laws.EncodedWordFitsRow.i2cInit hz
    | i2cOwnAddr a => exact Laws.EncodedWordFitsRow.i2cOwnAddr a
    | i2cStart => exact Laws.EncodedWordFitsRow.i2cStart
    | i2cAddress a d => exact Laws.EncodedWordFitsRow.i2cAddress a d
    | i2cSend b => exact Laws.EncodedWordFitsRow.i2cSend b
    | i2cReadAck => exact Laws.EncodedWordFitsRow.i2cReadAck
    | i2cReadNack => exact Laws.EncodedWordFitsRow.i2cReadNack
    | i2cStop => exact Laws.EncodedWordFitsRow.i2cStop
    | i2cStatus => exact Laws.EncodedWordFitsRow.i2cStatus
  exact if_pos (hfits h)

@[simp] theorem opField_append (hz : BitVec 24) (op : Byte) : opField (hz ++ op) = op := by
  apply BitVec.eq_of_getLsbD_eq
  intro i hi
  rw [opField, BitVec.getLsbD_extractLsb', Nat.zero_add, BitVec.getLsbD_append]
  simp [hi]

@[simp] theorem hzField_append (hz : BitVec 24) (op : Byte) : hzField (hz ++ op) = hz := by
  apply BitVec.eq_of_getLsbD_eq
  intro i hi
  rw [hzField, BitVec.getLsbD_extractLsb', BitVec.getLsbD_append]
  simp [hi]

/-- The low `k` bits of a field that holds a number of `k` bits are that number. -/
theorem toNat_lowBits_ofNat {n k : Nat} (hk : k ≤ 8) (hn : n < 2 ^ k) :
    ((BitVec.ofNat 8 n).extractLsb' 0 k).toNat = n := by
  have hbyte : n < 2 ^ 8 := Nat.lt_of_lt_of_le hn (Nat.pow_le_pow_right (by decide) hk)
  rw [BitVec.extractLsb'_toNat, BitVec.toNat_ofNat, Nat.shiftRight_zero, Nat.mod_eq_of_lt hbyte, Nat.mod_eq_of_lt hn]

/-- The decoder reads the encoded word of a well-formed command as a word for that command (30 R58 to R61). -/
theorem decode_encode_eq_checkedRow {i : Instr} (h : i.wellFormed = true) :
    decode (encode i) = checkedRow (encode i) i := by
  cases i with
  | spiValidate d x2 =>
    have hd : d < 256 := of_decide_eq_true h
    simp [decode, encode, Nat.mod_eq_of_lt hd]
  | spiLookup c m =>
    obtain ⟨hc, hm⟩ : c < 2 ^ 2 ∧ m < 2 ^ 2 := by simpa [Instr.wellFormed] using h
    simp only [decode, encode, abWord, opField_commandWord, aField_commandWord, bField_commandWord,
      toNat_lowBits_ofNat (by decide) hc, toNat_lowBits_ofNat (by decide) hm]
    rfl
  | spiConfigure d m ma x2 lsb ie pr =>
    obtain ⟨hd, hm⟩ : d < 256 ∧ m < 256 := by simpa [Instr.wellFormed] using h
    simp [decode, encode, Nat.mod_eq_of_lt hd, Nat.mod_eq_of_lt hm]
  | spiSelect l | spiDeselect l =>
    have hl : l < 256 := of_decide_eq_true h
    simp [decode, encode, abWord, Nat.mod_eq_of_lt hl]
  | i2cInit hz =>
    have hhz : hz < 16777216 := of_decide_eq_true h
    simp only [decode, encode, opField_append, hzField_append, BitVec.toNat_ofNat, Nat.mod_eq_of_lt hhz]
    rfl
  | i2cOwnAddr a =>
    have ha : a < 2 ^ 7 := of_decide_eq_true h
    simp only [decode, encode, abWord, opField_commandWord, aField_commandWord, toNat_lowBits_ofNat (by decide) ha]
    rfl
  | i2cAddress a d =>
    obtain ⟨ha, hd⟩ : a < 256 ∧ d < 256 := by simpa [Instr.wellFormed] using h
    simp [decode, encode, abWord, Nat.mod_eq_of_lt ha, Nat.mod_eq_of_lt hd]
  | spiTransfer | spiSend | i2cStart | i2cSend | i2cReadAck | i2cReadNack | i2cStop | i2cStatus =>
    simp [decode, encode, abWord]

/-- Settles O1: the decoder finds the command's own row, and the encoded word fits it. -/
theorem decodeUndoesEncode : Obligations.DecodeUndoesEncode := by
  intro i h
  rw [decode_encode_eq_checkedRow h, checkedRow_encode h]

/-! The fields of a word that fits a row: what the row constrains is 0. -/

section
variable {w m : Word} {op : Byte} (hfit : w &&& m = op.setWidth 32)
include hfit

/-- A constrained bit above the opcode is 0 (30 R59). -/
theorem constrainedBit_eq_false {j : Nat} (hj : 8 ≤ j) (hm : m.getLsbD j = true) : w.getLsbD j = false := by
  have hbit := congrArg (fun v => v.getLsbD j) hfit
  simpa [hm, BitVec.getLsbD_of_ge op j hj] using hbit

/-- The opcode field of a word that fits a row is the row's opcode. -/
theorem opField_of_fits (hm : ∀ j, j < 8 → m.getLsbD j = true) : opField w = op := by
  apply BitVec.eq_of_getLsbD_eq
  intro j hj
  have hbit := congrArg (fun v => v.getLsbD j) hfit
  rw [BitVec.getLsbD_and, hm j hj, Bool.and_true, BitVec.getLsbD_setWidth] at hbit
  rw [opField, BitVec.getLsbD_extractLsb', Nat.zero_add, hbit]
  simp [hj, Nat.lt_trans hj (by decide : 8 < 32)]

/-- Constrained bits of operand `A` are 0. -/
theorem aField_getLsbD_of_fits {j : Nat} (hj : j < 8) (hm : m.getLsbD (8 + j) = true) :
    (aField w).getLsbD j = false := by
  simp [aField, hj, constrainedBit_eq_false hfit (by omega) hm]

/-- Constrained bits of operand `B` are 0. -/
theorem bField_getLsbD_of_fits {j : Nat} (hj : j < 8) (hm : m.getLsbD (16 + j) = true) :
    (bField w).getLsbD j = false := by
  simp [bField, hj, constrainedBit_eq_false hfit (by omega) hm]

theorem aField_eq_zero (hm : ∀ j, j < 8 → m.getLsbD (8 + j) = true) : aField w = 0 :=
  BitVec.eq_of_getLsbD_eq fun j hj => (aField_getLsbD_of_fits hfit hj (hm j hj)).trans BitVec.getLsbD_zero.symm

theorem bField_eq_zero (hm : ∀ j, j < 8 → m.getLsbD (16 + j) = true) : bField w = 0 :=
  BitVec.eq_of_getLsbD_eq fun j hj => (bField_getLsbD_of_fits hfit hj (hm j hj)).trans BitVec.getLsbD_zero.symm

theorem flagField_eq_false {k : Nat} (hm : m.getLsbD (24 + k) = true) : flagField w k = false :=
  constrainedBit_eq_false hfit (by omega) hm

/-- A word that fits a row with the reserved bits constrained is put together from its operands and the row's opcode. -/
theorem commandWord_of_fits (hop : ∀ j, j < 8 → m.getLsbD j = true) (hrsv : ∀ j, j < 3 → m.getLsbD (29 + j) = true) :
    commandWord (flagField w 4) (flagField w 3) (flagField w 2) (flagField w 1) (flagField w 0) (bField w) (aField w)
      op = w := by
  have hzero : w.extractLsb' 29 3 = 0 := by
    apply BitVec.eq_of_getLsbD_eq
    intro j hj
    simp [hj, constrainedBit_eq_false hfit (by omega : 8 ≤ 29 + j) (hrsv j hj)]
  have hw := commandWord_fields w hzero
  rw [opField_of_fits hfit hop] at hw
  exact hw.symm

/-- A word of a row without flags. -/
theorem abWord_of_fits (hop : ∀ j, j < 8 → m.getLsbD j = true) (hhigh : ∀ j, j < 8 → m.getLsbD (24 + j) = true) :
    abWord (bField w) (aField w) op = w := by
  have hw := commandWord_of_fits hfit hop fun j hj => by
    rw [show 29 + j = 24 + (5 + j) by omega]
    exact hhigh (5 + j) (by omega)
  rwa [flagField_eq_false hfit (hhigh 0 (by decide)), flagField_eq_false hfit (hhigh 1 (by decide)),
    flagField_eq_false hfit (hhigh 2 (by decide)), flagField_eq_false hfit (hhigh 3 (by decide)),
    flagField_eq_false hfit (hhigh 4 (by decide))] at hw

end

/-- Format A: only operand `A` is free. -/
theorem abWord_of_fits_a {w : Word} {op : Byte} (hfit : w &&& Format.mask .a = op.setWidth 32) :
    abWord 0 (aField w) op = w := by
  rw [← bField_eq_zero hfit (by decide)]
  exact abWord_of_fits hfit (by decide) (by decide)

/-- Format N: no operand. -/
theorem abWord_of_fits_n {w : Word} {op : Byte} (hfit : w &&& Format.mask .n = op.setWidth 32) :
    abWord 0 0 op = w := by
  have hw := abWord_of_fits hfit (by decide) (by decide)
  rwa [aField_eq_zero hfit (by decide), bField_eq_zero hfit (by decide)] at hw

/-- A byte whose bits from `k` on are 0 is the number its low `k` bits hold. -/
theorem ofNat_toNat_lowBits {v : Byte} {k : Nat} (hv : ∀ j, j < 8 → k ≤ j → v.getLsbD j = false) :
    BitVec.ofNat 8 (v.extractLsb' 0 k).toNat = v := by
  apply BitVec.eq_of_getLsbD_eq
  intro j hj
  rw [BitVec.getLsbD_ofNat, ← BitVec.getLsbD, BitVec.getLsbD_extractLsb', Nat.zero_add]
  by_cases hk : j < k
  · simp [hj, hk]
  · simp [hk, hv j hj (by omega)]

/-- A word is its field `HZ` over its opcode (30 R58). -/
theorem hzField_append_opField (w : Word) : hzField w ++ opField w = w := by
  apply BitVec.eq_of_getLsbD_eq
  intro j hj
  rw [BitVec.getLsbD_append]
  by_cases hlow : j < 8
  · simp [opField, hlow]
  · have hj' : 8 + (j - 8) = j := by omega
    simp [hzField, hlow, hj', show j - 8 < 24 by omega]

/-! From a word to its command and back. -/

/-- A word that decodes gives a well-formed command: no field is wider than its operand (30 R60). -/
theorem wellFormed_of_decode {w : Word} {i : Instr} (h : decode w = .command i) : i.wellFormed = true := by
  unfold decode at h
  split at h
  case h_17 => cases h
  all_goals
    obtain ⟨rfl, -⟩ := (checkedRow_eq_command_iff w i _).mp h
    simp only [Instr.wellFormed, Bool.and_eq_true, decide_eq_true_eq]
  case h_1 | h_4 | h_5 => exact (aField w).isLt
  case h_2 => exact ⟨BitVec.isLt _, BitVec.isLt _⟩
  case h_3 | h_11 => exact ⟨(aField w).isLt, (bField w).isLt⟩
  case h_8 => exact (hzField w).isLt
  case h_9 => exact BitVec.isLt _

/-- A word that decodes is the encoding of its command: the free fields are the operands, the others are 0. -/
theorem encode_of_decode {w : Word} {i : Instr} (h : decode w = .command i) : encode i = w := by
  unfold decode at h
  split at h
  case h_17 => cases h
  all_goals
    obtain ⟨rfl, hfit⟩ := (checkedRow_eq_command_iff w i _).mp h
    simp only [Instr.format, Instr.opcode] at hfit
    simp only [encode, BitVec.ofNat_toNat, BitVec.setWidth_eq]
  case h_1 =>
    have hw := commandWord_of_fits hfit (by decide) (by decide)
    rwa [bField_eq_zero hfit (by decide), flagField_eq_false hfit (k := 0) (by decide),
      flagField_eq_false hfit (k := 2) (by decide), flagField_eq_false hfit (k := 3) (by decide),
      flagField_eq_false hfit (k := 4) (by decide)] at hw
  case h_2 =>
    have ha : ∀ j, j < 8 → 2 ≤ j → (aField w).getLsbD j = false := fun j hj hj2 =>
      aField_getLsbD_of_fits hfit hj (by revert j; decide)
    have hb : ∀ j, j < 8 → 2 ≤ j → (bField w).getLsbD j = false := fun j hj hj2 =>
      bField_getLsbD_of_fits hfit hj (by revert j; decide)
    rw [← BitVec.ofNat_toNat, ← BitVec.ofNat_toNat, ofNat_toNat_lowBits ha, ofNat_toNat_lowBits hb]
    exact abWord_of_fits hfit (by decide) (by decide)
  case h_3 => exact commandWord_of_fits hfit (by decide) (by decide)
  case h_4 | h_5 | h_6 | h_7 | h_12 => exact abWord_of_fits_a hfit
  case h_8 =>
    have hop : opField w = 0x10 := opField_of_fits hfit (by decide)
    rw [← hop]
    exact hzField_append_opField w
  case h_9 =>
    have ha : ∀ j, j < 8 → 7 ≤ j → (aField w).getLsbD j = false := fun j hj hj7 =>
      aField_getLsbD_of_fits hfit hj (by revert j; decide)
    have hw := abWord_of_fits hfit (by decide) (by decide)
    rwa [bField_eq_zero hfit (by decide), ← ofNat_toNat_lowBits ha, BitVec.ofNat_toNat] at hw
  case h_11 => exact abWord_of_fits hfit (by decide) (by decide)
  case h_10 | h_13 | h_14 | h_15 | h_16 => exact abWord_of_fits_n hfit

/-- Settles O2: the command read is well formed, and its encoding is the word. -/
theorem encodeUndoesDecode : Obligations.EncodeUndoesDecode := by
  intro w i h
  exact ⟨wellFormed_of_decode h, encode_of_decode h⟩
end Sys2Proof

namespace Sys2Proof.Machine

/-! Rows of the opcode table. -/

/-- The decoder checks a word against the row that has the word's opcode (30 R62). -/
theorem decode_of_opField : ∀ r ∈ commandRows, ∀ w : Word, (opField w).toNat = r.1.toNat →
    ∃ i : Instr, decode w = checkedRow w i ∧ (i.opcode.setWidth 32, i.format.mask) = r := by
  simp only [commandRows, List.forall_mem_cons]
  refine ⟨?_, ?_, ?_, ?_, ?_, ?_, ?_, ?_, ?_, ?_, ?_, ?_, ?_, ?_, ?_, ?_, ?_⟩
  case refine_17 => exact fun r hr => absurd hr List.not_mem_nil
  all_goals
    intro w hop
    rw [decode, hop]
    exact ⟨_, rfl, rfl⟩

/-- A word that fits a row decodes to a command of that row (30 R62). -/
theorem exists_decode_of_fits {w : Word} {r : Word × Word} (hr : r ∈ commandRows) (hfit : w &&& r.2 = r.1) :
    ∃ i, decode w = .command i := by
  have hop : (opField w).toNat = r.1.toNat := by
    rw [← and_lowByte_of_fits hr hfit, and_lowByte_toNat, opField]
  obtain ⟨i, hdecode, rfl⟩ := decode_of_opField r hr w hop
  exact ⟨i, hdecode.trans (if_pos hfit)⟩

/-- No word fits two rows: their opcodes differ (30 R62). -/
theorem row_unique_of_fits {w : Word} {r q : Word × Word} (hr : r ∈ commandRows) (hq : q ∈ commandRows)
    (hfitr : w &&& r.2 = r.1) (hfitq : w &&& q.2 = q.1) : r = q :=
  List.inj_on_of_nodup_map nodup_commandRows_match hr hq
    ((and_lowByte_of_fits hr hfitr).symm.trans (and_lowByte_of_fits hq hfitq))

/-- Settles O3: fitting a row and decoding are one, and the row is that of the opcode. -/
theorem decodingSelectsExactlyOneRow : Obligations.DecodingSelectsExactlyOneRow := by
  intro w
  refine ⟨⟨fun ⟨i, h⟩ => fits_row_of_decode h, fun ⟨r, hr, hfit⟩ => exists_decode_of_fits hr hfit⟩,
    fun r hr q hq => row_unique_of_fits hr hq, fun i h r hr hfit => ?_⟩
  exact row_unique_of_fits hr (row_mem_commandRows i) hfit (and_mask_of_decode w i h)

/-- Settles O4: six commands and two illegal words, evaluated. -/
theorem exampleWordsDecode : Obligations.ExampleWordsDecode := by
  unfold Obligations.ExampleWordsDecode
  decide

/-- A serialised word as a number: byte 0 is bits 7:0 (20 R39). -/
theorem wordOfBytes_eq (b0 b1 b2 b3 : Byte) :
    wordOfBytes b0 b1 b2 b3 =
      BitVec.ofNat 32 (b0.toNat + 256 * b1.toNat + 65536 * b2.toNat + 16777216 * b3.toNat) := by
  have h0 := b0.isLt
  have h1 := b1.isLt
  have h2 := b2.isLt
  apply BitVec.eq_of_toNat_eq
  rw [wordOfBytes, BitVec.toNat_append, BitVec.toNat_append, BitVec.toNat_append, ← Nat.shiftLeft_add_eq_or_of_lt h2,
    ← Nat.shiftLeft_add_eq_or_of_lt h1, ← Nat.shiftLeft_add_eq_or_of_lt h0, BitVec.toNat_ofNat]
  simp only [Nat.shiftLeft_eq]
  have h3 := b3.isLt
  omega

/-- Settles O5: the first four bytes are the word, and the rest is left. -/
theorem serialisedCommandIsLittleEndian : Obligations.SerialisedCommandIsLittleEndian := by
  intro b0 b1 b2 b3 rest
  rw [decodeBytes, wordOfBytes_eq]

end Sys2Proof.Machine

/-! PROOFS. What each command does in the step that decodes it, with its frame (spec 40 to 44): the shared operations as
one updated state, then the commands of the SPI side and of the I2C side. -/

namespace Sys2Proof.Machine

/-! Register accesses as one updated state. -/

/-- A write of `TWCR` with bit 7 = 0 triggers no bus action (20 R46). -/
theorem twiTriggered_of_clear {v : Byte} (h : v[7] = false) (old : TwiPending) : twiTriggered old v = old := by
  simp [twiTriggered, h]

/-- The action a write of `TWCR` leaves pending, in the order of 20 R46. -/
theorem twiTriggered_eq (old : TwiPending) (v : Byte) :
    twiTriggered old v =
      if v[7] = true ∧ v[2] = true ∧ v[4] = false then (if v[5] then .startAction else .byteAction) else old := by
  unfold twiTriggered
  cases v[7] <;> cases v[2] <;> cases v[4] <;> rfl

/-- The issue step of a transfer (42 R90, R91): the write of `SPDR` with its three cases, and the hold. -/
theorem issueSpi_eq (k : SpiWait) (b : Byte) (s : State) :
    issueSpi k b s = { s with
      phase := .waitSpi k, spdrTx := b,
      spsr := if s.spiPending then s.spsr ||| 0x40 else s.spsr,
      spiPending := s.spiPending || s.spcr[6] } := by
  rw [issueSpi, memWrite_spdr, writeSpdr_eq, enterPhase]

/-- The issue step of a bus command (43 R98, R103): the write of `TWCR`, and the hold. -/
theorem issueTwi_eq {control : Byte} (h : control[7] = true) (k : TwiWait) (s : State) :
    issueTwi k control s = { s with
      phase := .waitTwi k, twcr := (control &&& 0x75) ||| (s.twcr &&& 0x0A),
      twiPending := twiTriggered s.twiPending control } := by
  rw [issueTwi, memWrite_twcr, writeTwcr, twcrWritten_of_set _ _ h, enterPhase]

/-- The body of I2C.INIT (43 R101). -/
theorem initTwi_eq (br : Nat) (s : State) :
    initTwi br s = { s with
      cmd := none, phase := .ready, ci := s.ci + 1, resultCode := 0x00, resultValue := BitVec.ofNat 8 br,
      twsr := s.twsr &&& 0xFC, twbr := BitVec.ofNat 8 br, twcr := (s.twcr &&& 0x8A) ||| 0x04 } := by
  have htwsr : twsrWritten s.twsr 0x00 = s.twsr &&& 0xFC := by simp [twsrWritten]
  have htwcr : twcrWritten s.twcr 0x04 = (s.twcr &&& 0x8A) ||| 0x04 := by
    rw [twcrWritten_of_clear _ _ (by decide), BitVec.or_comm]
    rfl
  have hpending : twiTriggered s.twiPending 0x04 = s.twiPending := twiTriggered_of_clear (by decide) _
  simp only [initTwi, memWrite_twsr, memWrite_twbr, memWrite_twcr, writeTwcr, htwsr, htwcr, hpending, returnOk,
    completeCommand]

/-- The body of an accepted SPI.CONFIGURE (41 R82 to R85). -/
theorem configureSpi_eq (p : Byte) (master x2 : Bool) (s : State) :
    configureSpi p master x2 s = { s with
      cmd := none, phase := .ready, ci := s.ci + 1, resultCode := 0x00, resultValue := p,
      spcr := p, spsr := (s.spsr &&& 0xFE) ||| BitVec.ofNat 8 x2.toNat,
      events := if master then s.events ++ [.spiMasterPinDir] else s.events } := by
  have hspeed : (boolByte x2 &&& 0x01 : Byte) = BitVec.ofNat 8 x2.toNat := by cases x2 <;> decide
  simp only [configureSpi, memWrite_spcr, memWrite_spsr, spsrWritten_eq, hspeed]
  cases master <;> rfl

/-- Settles O40: the bits of the written `TWCR`, and the action by 20 R46's order. -/
theorem controlWriteTriggersAction : Obligations.ControlWriteTriggersAction := by
  intro v s
  simp only [memWrite_twcr, writeTwcr, twiTriggered_eq, twcrWritten_twea, twcrWritten_twsta,
    twcrWritten_twsto, twcrWritten_twen, twcrWritten_twie, twcrWritten_twwc, twcrWritten_reserved, twcrWritten_twint,
    and_self]

/-- Settles O41: two plain writes, and the two cases of a write of `TWDR`. -/
theorem dataWriteStoresOrCollides : Obligations.DataWriteStoresOrCollides := by
  intro v s
  refine ⟨memWrite_twbr v s, memWrite_twar v s, fun hset => ?stored, fun hclear => ?collided⟩
  case stored =>
    rw [memWrite_twdr, ← twcrDataWritten_of_set s.twcr hset]
    exact if_pos hset
  case collided =>
    refine ⟨s.freeByte, s.draws + 1, ?_⟩
    rw [memWrite_twdr, ← twcrDataWritten_of_clear s.twcr hclear]
    exact if_neg (Bool.eq_false_iff.mp hclear)

/-! SPI.VALIDATE, SPI.LOOKUP and SPI.CONFIGURE (spec 40, 41). -/

/-- The validator accepts the legal dividers of the speed class (40 R69, R70). -/
theorem validDivider_iff (x2 : Bool) (d : Nat) : validDivider x2 d = true ↔ LegalDivider x2 d := by
  cases x2 <;> simp [validDivider, legalDividers, LegalDivider]

theorem validDivider_eq_false_iff (x2 : Bool) (d : Nat) : validDivider x2 d = false ↔ ¬ LegalDivider x2 d := by
  rw [← validDivider_iff, Bool.not_eq_true]

/-- A cell of the divider/mode table by its formula (40 R75). -/
theorem tableCell_eq : ∀ c < 4, ∀ m < 4,
    tableCell c m = (BitVec.ofNat 8 (m / 2) <<< 3) ||| (BitVec.ofNat 8 (m % 2) <<< 2) ||| BitVec.ofNat 8 c := by decide

/-- The composed pattern of a divider in class `c` as a number (41 R79). -/
theorem patternOf_class : ∀ c < 4, ∀ m < 4, ∀ ma lsb ie : Bool,
    (tableCell c m ||| (boolByte ma <<< 4) ||| (boolByte lsb <<< 5) ||| (1#8 <<< 6) ||| (boolByte ie <<< 7) : Byte) =
      BitVec.ofNat 8 (128 * ie.toNat + 64 + 32 * lsb.toNat + 16 * ma.toNat + 4 * m + c) := by decide

/-- Each legal divider has the class of 40 R72. -/
theorem dividerClass_of_legal {x2 : Bool} {d : Nat} (h : LegalDivider x2 d) :
    dividerClass d = some (classNumber d) ∧ classNumber d < 4 := by
  obtain ⟨-, rfl | rfl | rfl | rfl⟩ | ⟨-, rfl | rfl | rfl | rfl⟩ := h <;> decide

/-- The composed pattern of an accepted configuration as a number (41 R79). -/
theorem composePattern_of_legal {x2 : Bool} {d m : Nat} (hd : LegalDivider x2 d) (hm : m ≤ 3) (ma lsb ie : Bool) :
    composePattern d m ma lsb ie =
      BitVec.ofNat 8 (128 * ie.toNat + 64 + 32 * lsb.toNat + 16 * ma.toNat + 4 * m + classNumber d) := by
  obtain ⟨hclass, hlt⟩ := dividerClass_of_legal hd
  rw [composePattern, hclass, Option.getD_some, patternOf_class _ hlt m (by omega)]

/-- A configuration with a legal divider and mode passes every check (41 R81). -/
theorem configError_of_legal {x2 : Bool} {d m : Nat} (hd : LegalDivider x2 d) (hm : m ≤ 3) :
    configError d m x2 true = none := by
  simp [configError, (validDivider_iff x2 d).mpr hd, Nat.not_lt.mpr hm]

/-- A configuration that fails a check reports the first one that fails (41 R81). -/
theorem configError_of_illegal {x2 pr : Bool} {d m : Nat} (h : pr = false ∨ ¬ LegalDivider x2 d ∨ 3 < m) :
    configError d m x2 pr = some
      (if pr = false then .nullConfig else if ¬ LegalDivider x2 d then .speedMismatch else .invalidMode) := by
  unfold configError
  simp only [validDivider_eq_false_iff]
  by_cases hpr : pr = false
  · rw [if_pos hpr, if_pos hpr]
  · by_cases hd : ¬ LegalDivider x2 d
    · rw [if_neg hpr, if_neg hpr, if_pos hd, if_pos hd]
    · have hm : m > 3 := (h.resolve_left hpr).resolve_left hd
      rw [if_neg hpr, if_neg hpr, if_neg hd, if_neg hd, if_pos hm]

/-- Settles O8: the validator's two outcomes differ in the result code only. -/
theorem validateAcceptsExactlyLegalDividers : Obligations.ValidateAcceptsExactlyLegalDividers := by
  intro d x2 s
  rw [exec_spiValidate, execSpiValidate]
  by_cases h : LegalDivider x2 d
  · rw [if_pos ((validDivider_iff x2 d).mpr h), if_pos h]
    rfl
  · rw [if_neg (mt (validDivider_iff x2 d).mp h), if_neg h]
    rfl

/-- Settles O9: the cell is the formula's. -/
theorem lookupReturnsTableCell : Obligations.LookupReturnsTableCell := by
  intro c m s hc hm
  rw [exec_spiLookup, execSpiLookup, tableCell_eq c hc m hm]
  rfl

/-- Settles O10: the checks pass, and the pattern written and returned is the composed one. -/
theorem configureProgramsSpi : Obligations.ConfigureProgramsSpi := by
  intro d m ma x2 lsb ie s hd hm
  simp only [exec_spiConfigure, execSpiConfigure, configError_of_legal hd hm, composePattern_of_legal hd hm,
    configureSpi_eq]

/-- Settles O11: the first failing check is the result code. -/
theorem configureRejectsInOrder : Obligations.ConfigureRejectsInOrder := by
  intro d m ma x2 lsb ie pr s h
  simp only [exec_spiConfigure, execSpiConfigure, configError_of_illegal h, returnError, completeCommand]
  split
  · rfl
  · split <;> rfl

/-! Chip select and transfer (spec 42). -/

/-- Driving a line changes no other line's level (10 R20). -/
theorem driveLine_csLevel_of_ne {l k : Nat} (hk : k ≠ l) (level : CsLevel) (s : State) :
    (driveLine l level s).csLevel k = s.csLevel k := by
  by_cases h : l ∈ s.params.csLines
  · rw [driveLine_of_mem h, State.csLevel, returnOk_cs, driveCs_cs, csDriven_lookup, if_neg hk, State.csLevel]
  · rw [driveLine_of_not_mem h, State.csLevel, returnError_cs, State.csLevel]

/-- Driving a line of `CS_LINES` changes the line levels and completes the command, nothing else. -/
theorem driveLine_frame {l : Nat} {s : State} (hl : l ∈ s.params.csLines) (level : CsLevel) :
    driveLine l level s = { s with
      cmd := none, phase := .ready, ci := s.ci + 1, resultCode := 0x00, resultValue := 0x00,
      cs := (driveLine l level s).cs } := by
  rw [driveLine_of_mem hl]
  rfl

/-- Settles O12: both commands drive their line, each to its level. -/
theorem selectAndDeselectDriveTheLine : Obligations.SelectAndDeselectDriveTheLine := by
  intro l s hl hrec
  have others (level : CsLevel) : ∀ k, k ≠ l → (driveLine l level s).csLevel k = s.csLevel k :=
    fun k hk => driveLine_csLevel_of_ne hk level s
  exact ⟨⟨driveLine l .low s, rfl, driveLine_csLevel hl hrec .low, others .low, driveLine_frame hl .low⟩,
    ⟨driveLine l .high s, rfl, driveLine_csLevel hl hrec .high, others .high, driveLine_frame hl .high⟩⟩

/-- Settles O14: driving a line outside `CS_LINES` is the error `BadCsLine`. -/
theorem unknownLineIsReported : Obligations.UnknownLineIsReported := by
  intro l s hl
  have report (level : CsLevel) : driveLine l level s = { s with
      cmd := none, phase := .ready, ci := s.ci + 1, resultCode := 0x07, resultValue := 0x00 } :=
    driveLine_of_not_mem hl level
  rw [exec_spiSelect, exec_spiDeselect, execSpiSelect, execSpiDeselect, report, report]
  exact ⟨rfl, rfl⟩

/-- Settles O15: both are the issue step of a transfer. -/
theorem transferAndSendIssue : Obligations.TransferAndSendIssue := by
  intro b s
  rw [exec_spiTransfer, exec_spiSend, execSpiTransfer, execSpiSend, issueSpi_eq, issueSpi_eq]
  exact ⟨rfl, rfl⟩

/-! The I2C commands (spec 43, 44). -/

/-- From a bus state of its set a settling command does its body at once: no set of R94 holds `StopPending`. -/
theorem prologue_of_valid {valid : BusState → Bool} {s : State} (hstop : valid .stopPending = false)
    (h : valid s.bus = true) (body : State → State) : prologue valid body s = body s := by
  have hbus : s.bus ≠ .stopPending := by
    intro hbus
    rw [hbus, hstop] at h
    cases h
  rw [prologue_of_settled (.direct hbus), checkSequence_of_valid h]

/-- Where the bit-rate formula gives no 8-bit value, there is no bit rate (43 R100). -/
theorem bitrate_of_not_fits {coreClockHz targetHz : Nat} (h : ¬ BitRateFits coreClockHz targetHz) :
    bitrate coreClockHz targetHz = none := by
  unfold bitrate
  split
  · rfl
  next htarget =>
    dsimp only
    split
    · rfl
    next hlow =>
      refine if_pos (Nat.lt_of_not_le fun hhigh => h ⟨htarget, Nat.le_of_not_lt hlow, ?_⟩)
      simpa [twiPrescaler] using hhigh

/-- The own-address byte as a number (43 R102). -/
theorem ownAddrByte_eq (a : Nat) : ownAddrByte a = BitVec.ofNat 8 (2 * a) := by
  have h := slaByte_eq a .write
  simpa [ownAddrByte, slaByte, Direction.bit] using h

/-- The decoded status as a number: the register without its low three bits (44 R111). -/
theorem decodeStatus_eq (v : Byte) : decodeStatus v = BitVec.ofNat 8 (v.toNat / 8 * 8) := by
  have hmask : ∀ j, j < 8 → statusMask.getLsbD j = decide (3 ≤ j) := by decide
  apply BitVec.eq_of_getLsbD_eq
  intro j hj
  rw [decodeStatus, BitVec.getLsbD_and, hmask j hj, BitVec.getLsbD_ofNat,
    show v.toNat / 8 * 8 = v.toNat / 2 ^ 3 * 2 ^ 3 from rfl, Nat.testBit_mul_two_pow, Nat.testBit_div_two_pow]
  by_cases h : 3 ≤ j
  · simp [h, hj, BitVec.getLsbD]
  · simp [h]

/-- Settles O20: the bit rate fits, and `Idle` is the command's set. -/
theorem initProgramsBitRate : Obligations.InitProgramsBitRate := by
  intro hz s hbus hfits
  have hvalid : validForInit s.bus = true := by rw [hbus]; rfl
  simp only [exec_i2cInit, execI2cInit, bitrate_of_fits hfits, prologue_of_valid rfl hvalid, initTwi_eq]

/-- Settles O21: without a bit rate the command is the error `BadBitRate`, before the prologue. -/
theorem initReportsBadBitRate : Obligations.InitReportsBadBitRate := by
  intro hz s hfits
  rw [exec_i2cInit, execI2cInit, bitrate_of_not_fits hfits]
  rfl

/-- Settles O22: the command is one write of `TWAR`. -/
theorem ownAddrStoresAddress : Obligations.OwnAddrStoresAddress := by
  intro a s _
  rw [exec_i2cOwnAddr, execI2cOwnAddr, memWrite_twar, ownAddrByte_eq]
  rfl

/-- Settles O23: the bus state is in the command's set, and 0xA4 triggers a start action. -/
theorem startIssues : Obligations.StartIssues := by
  intro s hbus
  have hvalid : validForStart s.bus = true := by obtain h | h := hbus <;> rw [h] <;> rfl
  have hpending : twiTriggered s.twiPending 0xA4 = .startAction := by simp [twiTriggered_eq]
  rw [exec_i2cStart, execI2cStart, prologue_of_valid rfl hvalid, issueTwi_eq (by decide), hpending]
  rfl

/-- An address outside [1,127] is refused (43 R106). -/
theorem validSlaveAddress_iff (a : Nat) : validSlaveAddress a = true ↔ ¬ (a = 0 ∨ 127 < a) := by
  simp only [validSlaveAddress, Bool.and_eq_true, decide_eq_true_eq]
  omega

theorem directionOf_of_gt {d : Nat} (h : 1 < d) : directionOf d = none := by
  obtain ⟨n, rfl⟩ : ∃ n, d = n + 2 := ⟨d - 2, by omega⟩
  rfl

/-- Settles O25: the address is checked first, then the direction, then nothing else is done. -/
theorem addressReportsBadOperands : Obligations.AddressReportsBadOperands := by
  intro a d s h
  rw [exec_i2cAddress, execI2cAddress]
  by_cases ha : a = 0 ∨ 127 < a
  · rw [if_neg (mt (validSlaveAddress_iff a).mp (not_not_intro ha)), if_pos ha]
    rfl
  · have hd : 1 < d := by omega
    rw [if_pos ((validSlaveAddress_iff a).mpr ha), directionOf_of_gt hd, if_neg ha]
    rfl

/-- Settles O26: the bus state is in the command's set, and the body is the issue step of a byte. -/
theorem sendIssues : Obligations.SendIssues := by
  intro b s hbus htwint
  have hvalid : validForSend s.bus = true := by obtain h | h := hbus <;> rw [h] <;> rfl
  rw [exec_i2cSend, execI2cSend, prologue_of_valid rfl hvalid, memWrite_twdr, issueTwi_writeTwdr htwint]

/-- Settles O27: both commands have one set, and their `TWCR` values differ in `TWEA` only. -/
theorem readsIssue : Obligations.ReadsIssue := by
  intro s hbus
  have hvalid : validForRead s.bus = true := by obtain h | h := hbus <;> rw [h] <;> rfl
  have hack : twiTriggered s.twiPending 0xC4 = .byteAction := by simp [twiTriggered_eq]
  have hnack : twiTriggered s.twiPending 0x84 = .byteAction := by simp [twiTriggered_eq]
  rw [exec_i2cReadAck, exec_i2cReadNack, execI2cReadAck, execI2cReadNack, prologue_of_valid rfl hvalid,
    prologue_of_valid rfl hvalid, issueTwi_eq (by decide), issueTwi_eq (by decide), hack, hnack]
  exact ⟨rfl, rfl⟩

/-- Settles O28: every open bus state is in the command's set, and a write that asks for a stop triggers no action. -/
theorem stopDoesNotBlock : Obligations.StopDoesNotBlock := by
  intro s hbus
  have hvalid : validForStop s.bus = true := by obtain h | h | h | h := hbus <;> rw [h] <;> rfl
  have hpending : twiTriggered s.twiPending 0x94 = s.twiPending := by simp [twiTriggered_eq]
  rw [exec_i2cStop, execI2cStop, prologue_of_valid rfl hvalid, memWrite_twcr, writeTwcr,
    twcrWritten_of_set _ _ (by decide), hpending]
  rfl

/-- Settles O29: the command reads `TWSR` and masks it. -/
theorem statusReturnsMaskedRegister : Obligations.StatusReturnsMaskedRegister := by
  intro s
  rw [exec_i2cStatus, execI2cStatus, memRead_twsr, decodeStatus_eq]
  rfl

end Sys2Proof.Machine

/-! PROOFS. The step of each agent (spec 20 R49 to R54; 60; 70): the block's turn by its phase, the peripherals' and the
host's turns, and reset. -/

namespace Sys2Proof.Machine

/-! The block's turn. -/

/-- A block that may decode runs the command its word stands for (30 R62; 43 R97). -/
theorem blockStep_of_mayDecode {s : State} {w : Word} {i : Instr} (hm : MayDecode s) (hcmd : s.cmd = some w)
    (hd : decode w = .command i) : blockStep s = exec i s := by
  obtain hready | ⟨hsettle, hstop⟩ := hm
  · rw [blockStep_ready s hready, runCommand_command s w i hcmd hd]
  · rw [blockStep_waitSettle s hsettle, hstop, if_neg Bool.false_ne_true, runCommand_command s w i hcmd hd]

/-- A block turn in `Ready` runs the command in `CMD`, with that turn used up. -/
theorem step_of_command {s : State} {w : Word} {i : Instr} {rest : List Turn} (hturns : s.turns = .block :: rest)
    (hphase : s.phase = .ready) (hcmd : s.cmd = some w) (hd : decode w = .command i) :
    step s = exec i { s with turns := rest } :=
  (step_of_turn s .block rest hturns).trans (blockStep_of_mayDecode (.inl hphase) hcmd hd)

/-- Settles O6: the step is the block's, and the block may decode. -/
theorem stepRunsDecodedCommand : Obligations.StepRunsDecodedCommand := by
  intro s w i hturn hcmd hd hphase
  refine ⟨wellFormed_of_decode hd, ?_⟩
  have hm : MayDecode s.turnTaken := by
    rw [MayDecode, turnTaken_phase, State.twsto, turnTaken_twcr]
    exact hphase
  calc step s
    _ = blockStep s.turnTaken := by rw [step, hturn]; rfl
    _ = exec i s.turnTaken := blockStep_of_mayDecode hm (by rw [turnTaken_cmd, hcmd]) hd
    _ = _ := by rw [turnTaken_eq]

/-- The block's turn on a transfer whose `SPIF` is set, once `SPDR_RX` holds a value (42 R90 to R92). -/
theorem blockStep_spiCompletion {k : SpiWait} {s : State} (hphase : s.phase = .waitSpi k) (hspif : s.spsr[7] = true)
    (hfilled : s.spdrRxFilled = true) : blockStep s = .next { s with
      cmd := none, phase := .ready, ci := s.ci + 1, resultCode := 0x00,
      resultValue := if k = .transfer then s.spdrRx else 0x00, spsr := s.spsr &&& 0x3F } := by
  rw [blockStep_waitSpi s k hphase, State.spif, if_pos hspif, finishSpi_of_filled k s hfilled, spsrDataRead_eq]
  rfl

/-- Settles O16: `SPDR_RX` holds a value, so the completion step returns it. -/
theorem spiCompletionReturnsAndClears : Obligations.SpiCompletionReturnsAndClears := by
  intro k s rest hturns hphase hspif hshake
  exact (step_of_turn s .block rest hturns).trans (blockStep_spiCompletion hphase hspif (hshake hspif))

/-- The completion step of a bus command in one state: R94's 'after' column, and the status or the byte (44 R113). -/
theorem finishTwi_eq_returnOk (k : TwiWait) (s : State) :
    finishTwi k s = returnOk (if returnsByte k then s.twdr else s.twsr &&& 0xF8) { s with bus := busAfter k } := by
  rw [finishTwi_eq]
  cases k <;> rfl

/-- The block's turn on a bus command whose `TWINT` is set (43 R104, R106 to R109). -/
theorem blockStep_twiCompletion {k : TwiWait} {s : State} (hphase : s.phase = .waitTwi k) (htwint : s.twcr[7] = true) :
    blockStep s = .next { s with
      cmd := none, phase := .ready, ci := s.ci + 1, resultCode := 0x00, bus := busAfter k,
      resultValue := if returnsByte k then s.twdr else s.twsr &&& 0xF8 } := by
  rw [blockStep_waitTwi s k hphase, State.twint, if_pos htwint, finishTwi_eq_returnOk]
  rfl

/-- Settles O30: the flag is set, so the block's turn is the completion step. -/
theorem twiCompletionReturnsAndMovesBus : Obligations.TwiCompletionReturnsAndMovesBus := by
  intro k s rest hturns hphase htwint
  exact (step_of_turn s .block rest hturns).trans (blockStep_twiCompletion hphase htwint)

/-- A held block's turn changes nothing (20 R53). -/
theorem blockStep_of_held {s : State} (h : s.held = true) : blockStep s = .next s := by
  unfold State.held at h
  split at h
  next k hphase =>
    rw [Bool.not_eq_true'] at h
    rw [blockStep_waitSpi s k hphase, h, if_neg Bool.false_ne_true]
  next k hphase =>
    rw [Bool.not_eq_true'] at h
    rw [blockStep_waitTwi s k hphase, h, if_neg Bool.false_ne_true]
  next hphase => rw [blockStep_waitSettle s hphase, h, if_pos rfl]
  next => cases h

/-- Settles O45: the turn is used up and the block stays held. -/
theorem heldBlockHasNoStep : Obligations.HeldBlockHasNoStep := by
  intro s rest hheld hturns
  have hheld' : ({ s with turns := rest } : State).held = true := hheld
  rw [step_of_turn s .block rest hturns, agentStep, blockStep_of_held hheld']

/-! The turns of the peripherals and of the host. -/

/-- The SPI peripheral's step is enabled by a pending transfer or in an enabled slave (20 R49). -/
theorem spiEnabled_iff (s : State) :
    s.spiEnabled = true ↔ s.spiPending = true ∨ (s.spcr[6] = true ∧ s.spcr[4] = false) := by
  simp [State.spiEnabled, State.spe, State.mstr]

/-- The SPI completion step (20 R49). -/
theorem spiCompletionStep_eq (b : Byte) (s : State) :
    spiCompletionStep b s = if s.spiPending = true ∨ (s.spcr[6] = true ∧ s.spcr[4] = false) then
        { s with spdrRx := b, spdrRxFilled := true, spsr := s.spsr ||| 0x80, spiPending := false }
      else s := by
  simp only [spiCompletionStep, spiEnabled_iff, spsrCompleted_eq]

/-- The TWI completion step (20 R50). -/
theorem twiCompletionStep_eq (st : BitVec 5) (b : Byte) (s : State) :
    twiCompletionStep st b s = if s.twiPending = .none then s else { s with
      twsr := BitVec.ofNat 8 (8 * st.toNat) ||| (s.twsr &&& 0x07),
      twdr := if s.twiPending = .byteAction then b else s.twdr,
      twcr := s.twcr ||| 0x80, twiPending := .none } := by
  have htwdr : twdrAfter s.twiPending s.twdr b = if s.twiPending = .byteAction then b else s.twdr := by
    cases s.twiPending <;> rfl
  rw [twiCompletionStep, twsrStatus_eq, htwdr, twcrCompleted_eq]

/-- The stop-settle step (20 R51). -/
theorem stopSettleStep_eq (st : BitVec 5) (s : State) :
    stopSettleStep st s = if s.twcr[4] = true ∧ s.twiPending = .none then
        { s with twcr := s.twcr &&& 0xEF, twsr := BitVec.ofNat 8 (8 * st.toNat) ||| (s.twsr &&& 0x07) }
      else s := by
  rw [stopSettleStep, twsrStatus_eq, twcrStopSettled_eq, State.twsto]

/-- The host's step (20 R52). -/
theorem hostStep_eq (w : Word) (s : State) :
    hostStep w s = { s with cmd := if s.phase = .ready then some w else s.cmd } := by
  unfold hostStep
  split <;> rfl

/-- Settles O42: the turn is the SPI completion step. -/
theorem spiPeripheralStep : Obligations.SpiPeripheralStep := by
  intro s b rest hturns
  rw [step_of_turn s _ rest hturns, agentStep, spiCompletionStep_eq]

/-- Settles O43: the turns are the TWI completion step and the stop-settle step. -/
theorem twiPeripheralSteps : Obligations.TwiPeripheralSteps := by
  intro s st b rest
  refine ⟨fun hturns => ?completes, fun hturns => ?settles⟩
  case completes => rw [step_of_turn s _ rest hturns, agentStep, twiCompletionStep_eq]
  case settles => rw [step_of_turn s _ rest hturns, agentStep, stopSettleStep_eq]

/-- Settles O44: the turn is the host's step. -/
theorem hostWritesCommandOnlyWhenReady : Obligations.HostWritesCommandOnlyWhenReady := by
  intro s w rest hturns
  rw [step_of_turn s _ rest hturns, agentStep, hostStep_eq]

/-! Reset. -/

/-- Settles O51: the turn is reset under the state's parameters. -/
theorem resetRestoresEveryRegister : Obligations.ResetRestoresEveryRegister := by
  intro s rest hturns
  rw [step_of_turn s _ rest hturns]
  rfl

/-- Settles O52: the reset state, evaluated. -/
theorem resetStateHoldsSpecValues : Obligations.ResetStateHoldsSpecValues := by
  unfold Obligations.ResetStateHoldsSpecValues
  decide

/-- The reserved bits are 0 after reset, whatever `PERIPH_RESET` (10 R24, R26, R27). -/
theorem afterReset_reservedBitsClear (p : Params) (turns : List Turn) (draws : Nat) :
    ReservedBitsClear (State.afterReset p turns draws) := by
  simp [ReservedBitsClear, State.afterReset, resetSpsr, resetTwcr, resetTwsr, BitVec.and_assoc]

/-- No command, no wait and no fault after reset (10 R33). -/
theorem afterReset_commandRecord (p : Params) (turns : List Turn) (draws : Nat) :
    CommandRecord (State.afterReset p turns draws) := by
  simp [CommandRecord, State.afterReset, Phase.waiting, Phase.waitsSpi, Phase.waitsTwi]

/-- No transaction is open and no bus action is pending after reset (10 R33, R34). -/
theorem afterReset_twiHandshake (p : Params) (turns : List Turn) (draws : Nat) :
    TwiHandshake (State.afterReset p turns draws) := by
  simp [TwiHandshake, State.afterReset, BusState.inTransaction, Phase.waitsTwi]

/-- `SPIF` = 0 after reset, whatever `PERIPH_RESET` (10 R34). -/
theorem afterReset_spiHandshake (p : Params) (turns : List Turn) (draws : Nat) :
    SpiHandshake (State.afterReset p turns draws) := by
  simp [SpiHandshake, State.afterReset, State.spif, resetSpsr]

/-- Each line has its entry after reset (10 R33). -/
theorem afterReset_csRecord (p : Params) (turns : List Turn) (draws : Nat) :
    CsRecord (State.afterReset p turns draws) := by
  simp [CsRecord, State.afterReset, Function.comp_def]

/-- `TWIE` after reset is the bit of `PERIPH_RESET` (10 R34). -/
theorem afterReset_twiInterruptOff {p : Params} (h : p.periphReset.twcr[0] = false) (turns : List Turn)
    (draws : Nat) : TwiInterruptOff (State.afterReset p turns draws) := by
  simp [TwiInterruptOff, State.afterReset, State.twie, resetTwcr, h]

/-- Settles O53: one lemma for each invariant. -/
theorem resetMeetsInvariants : Obligations.ResetMeetsInvariants := by
  intro p turns draws htwie
  exact ⟨afterReset_reservedBitsClear p turns draws, afterReset_commandRecord p turns draws,
    afterReset_twiHandshake p turns draws, afterReset_spiHandshake p turns draws, afterReset_csRecord p turns draws,
    afterReset_twiInterruptOff htwie turns draws⟩

/-! Every step answers a next state. -/

/-- No command ends in a fault or a refusal of the host's interface (60 R125; log 13). -/
theorem exec_answers (i : Instr) (s : State) : ∃ t, exec i s = .next t := by
  cases i <;> exact ⟨_, rfl⟩

theorem runCommand_answers (s : State) : ∃ t, runCommand s = .next t := by
  cases hc : s.cmd with
  | none => exact ⟨s, runCommand_none s hc⟩
  | some w =>
    cases hd : decode w with
    | command i =>
      rw [runCommand_command s w i hc hd]
      exact exec_answers i s
    | illegal e => exact ⟨_, runCommand_illegal s w e hc hd⟩

theorem blockStep_answers (s : State) : ∃ t, blockStep s = .next t := by
  cases hp : s.phase with
  | ready =>
    rw [blockStep_ready s hp]
    exact runCommand_answers s
  | waitSpi k => exact ⟨_, blockStep_waitSpi s k hp⟩
  | waitTwi k => exact ⟨_, blockStep_waitTwi s k hp⟩
  | waitSettle =>
    rw [blockStep_waitSettle s hp]
    split
    · exact ⟨s, rfl⟩
    · exact runCommand_answers s
  | faulted => exact ⟨s, blockStep_faulted s hp⟩

/-- Settles O60: each agent's step answers a next state. -/
theorem stepAlwaysAnswersNextState : Obligations.StepAlwaysAnswersNextState := by
  intro s
  unfold step
  cases s.nextTurn with
  | block => exact blockStep_answers s.turnTaken
  | host | spiCompletes | twiCompletes | stopSettles | reset => exact ⟨_, rfl⟩

end Sys2Proof.Machine

/-! PROOFS. Whole commands under named turns (spec 42 R90; 43 R97, R104, R108; 70 R142): each run is put together from the
command's issue step, the peripheral's step and the completion step. -/

namespace Sys2Proof.Machine

/-! The peripherals' turns while their step is enabled. -/

/-- The SPI peripheral's turn while a transfer is pending (20 R49). -/
theorem step_of_spiPending {s : State} {b : Byte} {rest : List Turn} (hturns : s.turns = .spiCompletes b :: rest)
    (h : s.spiPending = true) : step s = .next { s with
      turns := rest, spdrRx := b, spdrRxFilled := true, spsr := s.spsr ||| 0x80, spiPending := false } := by
  rw [spiPeripheralStep s b rest hturns, if_pos (.inl h)]

/-- The TWI peripheral's turn while a bus action is pending (20 R50). -/
theorem step_of_twiPending {s : State} {st : BitVec 5} {b : Byte} {rest : List Turn}
    (hturns : s.turns = .twiCompletes st b :: rest) (h : s.twiPending ≠ .none) : step s = .next { s with
      turns := rest, twsr := BitVec.ofNat 8 (8 * st.toNat) ||| (s.twsr &&& 0x07),
      twdr := if s.twiPending = .byteAction then b else s.twdr,
      twcr := s.twcr ||| 0x80, twiPending := .none } := by
  rw [(twiPeripheralSteps s st b rest).1 hturns, if_neg h]

/-- The TWI peripheral's turn while a stop condition is in progress (20 R51). -/
theorem step_of_stopPending {s : State} {st : BitVec 5} {rest : List Turn} (hturns : s.turns = .stopSettles st :: rest)
    (hstop : s.twcr[4] = true) (hpending : s.twiPending = .none) : step s = .next { s with
      turns := rest, twcr := s.twcr &&& 0xEF, twsr := BitVec.ofNat 8 (8 * st.toNat) ||| (s.twsr &&& 0x07) } := by
  rw [(twiPeripheralSteps s st 0 rest).2 hturns, if_pos ⟨hstop, hpending⟩]

/-! SPI.TRANSFER (42 R90). -/

/-- The issue step of SPI.TRANSFER with the SPI enabled and no transfer pending: it starts one (20 R45). -/
theorem step_of_transfer {s : State} {w : Word} {b : Byte} {rest : List Turn} (hturns : s.turns = .block :: rest)
    (hphase : s.phase = .ready) (hcmd : s.cmd = some w) (hd : decode w = .command (.spiTransfer b))
    (hspe : s.spcr[6] = true) (hpending : s.spiPending = false) : step s = .next { s with
      turns := rest, phase := .waitSpi .transfer, spdrTx := b, spiPending := true } := by
  rw [step_of_command hturns hphase hcmd hd, (transferAndSendIssue b _).1]
  simp [hspe, hpending]

/-- Settles O17: issue, delivery, completion; the delivery fills `SPDR_RX`. -/
theorem transferExchangesOneByte : Obligations.TransferExchangesOneByte := by
  intro s w b r rest hphase hcmd hd hspe hpending hturns
  have hissue := step_of_transfer hturns hphase hcmd hd hspe hpending
  refine run_three s _ _ _ hissue (step_of_spiPending rfl rfl)
    ((spiCompletionReturnsAndClears .transfer _ rest rfl rfl (by simp) fun _ => rfl).trans ?_)
  simp [BitVec.and_or_distrib_right, hpending]

/-- Settles O18: the completion step finds the older flag, so it comes before the delivery. -/
theorem staleByteReturnsAtOnce : Obligations.StaleByteReturnsAtOnce := by
  intro s w b rest hphase hcmd hd hspe hpending hspif hshake hturns
  have hissue := step_of_transfer hturns hphase hcmd hd hspe hpending
  exact run_two s _ _ hissue (spiCompletionReturnsAndClears .transfer _ rest rfl rfl hspif hshake)

/-! I2C.START and I2C.READACK (43 R104, R108). -/

/-- Masking a new status code returns the code alone (44 R111). -/
theorem status_masked (st : BitVec 5) (old : Byte) :
    (BitVec.ofNat 8 (8 * st.toNat) ||| (old &&& 0x07)) &&& 0xF8 = BitVec.ofNat 8 (8 * st.toNat) := by
  have hcode : ∀ st : BitVec 5, BitVec.ofNat 8 (8 * st.toNat) &&& 0xF8 = BitVec.ofNat 8 (8 * st.toNat) := by decide
  rw [BitVec.and_or_distrib_right, hcode, BitVec.and_assoc, show (0x07 &&& 0xF8 : Byte) = 0#8 from rfl,
    BitVec.and_zero, BitVec.or_zero]

/-- `TWINT` set over a written `TWCR` (20 R46, R50). -/
theorem completed_over_written (v old : Byte) : v ||| old ||| 0x80 = (v ||| 0x80) ||| old := by
  rw [BitVec.or_assoc, BitVec.or_comm old, ← BitVec.or_assoc]

/-- Settles O31: issue, completion with the drawn status, return of the masked status. -/
theorem startReturnsDrawnStatus : Obligations.StartReturnsDrawnStatus := by
  intro s w st b rest hphase hcmd hd hbus hturns
  have hissue := (step_of_command hturns hphase hcmd hd).trans (startIssues _ hbus)
  refine run_three s _ _ _ hissue (step_of_twiPending rfl nofun)
    ((twiCompletionReturnsAndMovesBus .start _ rest rfl rfl (by simp)).trans ?_)
  simp only [returnsByte, busAfter, Bool.false_eq_true, if_false, status_masked, completed_over_written]
  rfl

/-- Settles O32: issue, completion with the drawn byte, return of the byte. -/
theorem readReturnsDrawnByte : Obligations.ReadReturnsDrawnByte := by
  intro s w st b rest hphase hcmd hd hbus hturns
  have hissue := (step_of_command hturns hphase hcmd hd).trans
    (readsIssue { s with turns := .twiCompletes st b :: .block :: rest } hbus).1
  refine run_three s _ _ _ hissue (step_of_twiPending rfl nofun)
    ((twiCompletionReturnsAndMovesBus .readAck _ rest rfl rfl (by simp)).trans ?_)
  simp only [returnsByte, busAfter, if_true, completed_over_written]
  rfl

/-! Commands after a stop (43 R97). -/

/-- In `StopPending` the prologue begins to hold, unless the block holds already and the stop has settled (43 R97). -/
theorem prologue_of_unsettled {s : State} (hbus : s.bus = .stopPending)
    (h : ¬ (s.phase = .waitSettle ∧ s.twsto = false)) (valid : BusState → Bool) (body : State → State) :
    prologue valid body s = { s with phase := .waitSettle } := by
  rw [prologue, if_pos hbus, if_neg h, enterPhase]

/-- Settles O34: every settling command is a prologue, which holds first and, once settled, sees `Idle`. -/
theorem stopPendingSettlesFirst : Obligations.StopPendingSettlesFirst := by
  intro i s hsettles hbus
  obtain ⟨body, hexec⟩ := exec_eq_prologue_of_settles hsettles
  refine ⟨fun hready => ?holds, fun hphase hstop => ?settled⟩
  case holds =>
    have hunsettled : ¬ (s.phase = .waitSettle ∧ s.twsto = false) := by simp [hready]
    rw [hexec s rfl, prologue_of_unsettled hbus hunsettled]
  case settled =>
    have hidle : ({ s with bus := .idle } : State).bus ≠ .stopPending := nofun
    rw [hexec s rfl, hexec { s with bus := .idle } rfl, prologue_of_settled (.afterStop hbus hphase hstop),
      prologue_of_settled (.direct hidle)]

/-- A block turn that finds the stop settled runs the waiting command in `Idle` (43 R97). -/
theorem step_of_settled {s : State} {w : Word} {i : Instr} {rest : List Turn} (hturns : s.turns = .block :: rest)
    (hphase : s.phase = .waitSettle) (hstop : s.twcr[4] = false) (hcmd : s.cmd = some w) (hd : decode w = .command i)
    (hsettles : settles s.params.coreClockHz i = true) (hbus : s.bus = .stopPending) :
    step s = exec i { s with turns := rest, bus := .idle } :=
  calc step s
    _ = blockStep { s with turns := rest } := step_of_turn s .block rest hturns
    _ = exec i { s with turns := rest } := blockStep_of_mayDecode (.inr ⟨hphase, hstop⟩) hcmd hd
    _ = exec i { s with turns := rest, bus := .idle } :=
      (stopPendingSettlesFirst i { s with turns := rest } hsettles hbus).2 hphase hstop

/-- A settling command presented in `StopPending` while the stop is in progress: it holds, the stop settles with the
drawn status, and the command runs in `Idle`. -/
theorem run_afterStop {s t : State} {w : Word} {i : Instr} {st : BitVec 5} {rest : List Turn}
    (hturns : s.turns = .block :: .stopSettles st :: .block :: rest) (hphase : s.phase = .ready)
    (hcmd : s.cmd = some w) (hd : decode w = .command i) (hsettles : settles s.params.coreClockHz i = true)
    (hbus : s.bus = .stopPending) (hstop : s.twcr[4] = true) (hpending : s.twiPending = .none)
    (hexec : exec i { s with
      turns := rest, phase := .waitSettle, bus := .idle, twcr := s.twcr &&& 0xEF,
      twsr := BitVec.ofNat 8 (8 * st.toNat) ||| (s.twsr &&& 0x07) } = .next t) :
    Host.Core.run Sys2Proof.core 3 s = .next t := by
  have hsettled : (s.twcr &&& 0xEF : Byte)[4] = false := by simp
  have hhold : step s = .next { s with turns := .stopSettles st :: .block :: rest, phase := .waitSettle } :=
    (step_of_command hturns hphase hcmd hd).trans
      ((stopPendingSettlesFirst i { s with turns := .stopSettles st :: .block :: rest } hsettles hbus).1 hphase)
  have hsettle : step { s with turns := .stopSettles st :: .block :: rest, phase := .waitSettle } = .next { s with
      turns := .block :: rest, phase := .waitSettle, twcr := s.twcr &&& 0xEF,
      twsr := BitVec.ofNat 8 (8 * st.toNat) ||| (s.twsr &&& 0x07) } := step_of_stopPending rfl hstop hpending
  have hresume := step_of_settled (s := { s with
      turns := .block :: rest, phase := .waitSettle, twcr := s.twcr &&& 0xEF,
      twsr := BitVec.ofNat 8 (8 * st.toNat) ||| (s.twsr &&& 0x07) }) rfl rfl hsettled hcmd hd hsettles hbus
  exact run_three s _ _ t hhold hsettle (hresume.trans hexec)

/-- Settles O35: from `Idle` the start is issued. -/
theorem startAfterStopSettlesThenIssues : Obligations.StartAfterStopSettlesThenIssues := by
  intro s w st rest hphase hcmd hd hbus hstop hpending hturns
  refine run_afterStop hturns hphase hcmd hd rfl hbus hstop hpending ((startIssues _ (.inl rfl)).trans ?_)
  simp [BitVec.and_assoc]

/-- Settles O36: `Idle` is not in the set of I2C.SEND, so the fault is entered after the stop has settled. -/
theorem sendAfterStopSettlesThenFaults : Obligations.SendAfterStopSettlesThenFaults := by
  intro s w b st rest hphase hcmd hd hbus hstop hpending hturns
  have hidle : BusState.idle ≠ .stopPending := nofun
  refine run_afterStop hturns hphase hcmd hd rfl hbus hstop hpending ?_
  exact exec_of_bus_not_mem_validBefore rfl (.direct hidle) (by simp [validBefore]) hcmd

end Sys2Proof.Machine

/-! PROOFS. What one step can change. `Move` lists everything a step can do once its turn is used up; the frames of 10 R14
to R21 and 60 R118, R121 are read off that list. -/

namespace Sys2Proof.Machine

/-! Everything a step can do. -/

/-- Everything a step can do in the state `s` that has used up the turn (20 R49 to R54; 70 R133). -/
inductive Move (s : State) : Turn → State → Prop where
  | host (w : Word) : Move s (.host w) (hostStep w s)
  | spiCompletes (b : Byte) : Move s (.spiCompletes b) (spiCompletionStep b s)
  | twiCompletes (st : BitVec 5) (b : Byte) : Move s (.twiCompletes st b) (twiCompletionStep st b s)
  | stopSettles (st : BitVec 5) : Move s (.stopSettles st) (stopSettleStep st s)
  | reset : Move s .reset (resetStep s)
  | noStep : Move s .block s
  | finishSpi (k : SpiWait) (hphase : s.phase = .waitSpi k) (hspif : s.spif = true) : Move s .block (finishSpi k s)
  | finishTwi (k : TwiWait) (hphase : s.phase = .waitTwi k) (htwint : s.twint = true) : Move s .block (finishTwi k s)
  | illegal (w : Word) (hm : MayDecode s) (hcmd : s.cmd = some w) : Move s .block (raiseFault .illegalCommand s)
  | command (w : Word) (t : State) (hm : MayDecode s) (hcmd : s.cmd = some w) (h : Effect s t) : Move s .block t

/-- A step is one of these moves. -/
theorem move_of_step {s t : State} (h : step s = .next t) : Move s.turnTaken s.nextTurn t := by
  obtain ⟨w, hn, rfl⟩ | ⟨b, hn, rfl⟩ | ⟨st, b, hn, rfl⟩ | ⟨st, hn, rfl⟩ | ⟨hn, rfl⟩ | ⟨hn, hblock⟩ := step_cases s t h
  case inr.inr.inr.inr.inr =>
    rw [hn]
    obtain rfl | ⟨k, hphase, hspif, rfl⟩ | ⟨k, hphase, htwint, rfl⟩ | ⟨w, e, hm, hcmd, -, rfl⟩ |
      ⟨w, i, hm, hcmd, -, hexec⟩ := blockStep_cases s.turnTaken t hblock
    · exact .noStep
    · exact .finishSpi k hphase hspif
    · exact .finishTwi k hphase htwint
    · exact .illegal w hm hcmd
    · exact .command w t hm hcmd (exec_effect i s.turnTaken t hexec)
  all_goals
    rw [hn]
    constructor

/-- The state in which a settling command runs differs from the state before in the bus state only (43 R97). -/
theorem Settled.exists_bus {s u : State} (h : Settled s u) : ∃ b, u = { s with bus := b } := by
  cases h with
  | direct => exact ⟨s.bus, rfl⟩
  | afterStop => exact ⟨.idle, rfl⟩

/-- Both cases of a write of `TWDR` leave the same `TWCR` (20 R48). -/
@[simp] theorem writeTwdr_twcr (v : Byte) (s : State) : (writeTwdr v s).twcr = twcrDataWritten s.twcr := by
  obtain ⟨-, h⟩ | ⟨-, h⟩ := writeTwdr_cases v s <;> rw [h]

/-- The SPI completion step with the result named: the frame of `finishSpi` whether or not `SPDR_RX` holds a value. -/
theorem finishSpi_frame (k : SpiWait) (s : State) : ∃ (v : Byte) (draws : Nat),
    finishSpi k s = returnOk v { s with draws := draws, spsr := s.spsr &&& 0x3F } := by
  rw [← spsrDataRead_eq]
  obtain hfilled | hempty := Bool.eq_false_or_eq_true s.spdrRxFilled
  · exact ⟨_, s.draws, finishSpi_of_filled k s hfilled⟩
  · exact ⟨_, _, finishSpi_of_empty k s hempty⟩

/-! Results (10 R18, R19). -/

/-- No result is written and no command is counted. -/
def NoResult (s t : State) : Prop := t.ci = s.ci ∧ t.resultCode = s.resultCode ∧ t.resultValue = s.resultValue

/-- A result is written, the command is counted and the block is ready again; an error has value 0x00. -/
def Completed (s t : State) : Prop :=
  t.ci = s.ci + 1 ∧ t.phase = .ready ∧ t.cmd = none ∧ (t.resultCode ≠ 0x00 → t.resultValue = 0x00)

/-- A success is a completed command, whatever it changed before its return (60 R117). -/
theorem completed_returnOk {s u : State} (v : Byte) (hci : u.ci = s.ci) : Completed s (returnOk v u) :=
  ⟨congrArg (· + 1) hci, rfl, rfl, fun h => absurd rfl h⟩

/-- A decoded command completes, or writes no result. -/
theorem result_of_effect {s t : State} (h : Effect s t) : NoResult s t ∨ Completed s t := by
  cases h with
  | error e => exact .inr ⟨rfl, rfl, rfl, fun _ => rfl⟩
  | value v => exact .inr (completed_returnOk v rfl)
  | configure p master x2 =>
    rw [configureSpi_eq]
    exact .inr ⟨rfl, rfl, rfl, fun h => absurd rfl h⟩
  | drive | ownAddr | status => exact .inr (completed_returnOk _ rfl)
  | init u hu =>
    obtain ⟨b, rfl⟩ := hu.exists_bus
    exact .inr (completed_returnOk _ rfl)
  | stop u hu =>
    obtain ⟨b, rfl⟩ := hu.exists_bus
    exact .inr (completed_returnOk _ rfl)
  | issueSpi => exact .inl (by simp [NoResult, issueSpi])
  | settle => exact .inl ⟨rfl, rfl, rfl⟩
  | violation u hu | start u hu | address u hu | send u hu | readAck u hu | readNack u hu =>
    obtain ⟨b, rfl⟩ := hu.exists_bus
    exact .inl (by simp [NoResult, issueTwi])

/-- Settles O47: the block's completing moves write the result, and no other move but reset does. -/
theorem resultsComeWithCompletion : Obligations.ResultsComeWithCompletion := by
  intro s t hreset hstep
  have hmove := move_of_step hstep
  suffices hresult : NoResult s.turnTaken t ∨ Completed s.turnTaken t by
    simpa only [NoResult, Completed, turnTaken_ci, turnTaken_resultCode, turnTaken_resultValue] using hresult
  generalize s.turnTaken = u, s.nextTurn = turn at hmove hreset
  cases hmove with
  | host | spiCompletes | twiCompletes | stopSettles => exact .inl (by simp [NoResult])
  | reset => exact absurd rfl hreset
  | noStep => exact .inl ⟨rfl, rfl, rfl⟩
  | finishSpi k =>
    obtain ⟨v, draws, heq⟩ := finishSpi_frame k u
    rw [heq]
    exact .inr (completed_returnOk v rfl)
  | finishTwi k =>
    rw [finishTwi_eq_returnOk]
    exact .inr (completed_returnOk _ rfl)
  | illegal => exact .inl ⟨rfl, rfl, rfl⟩
  | command w t hm hcmd heffect => exact result_of_effect heffect

/-- Settles O48: of the things a decoded command can do, only the error return counts it with a nonzero code. -/
theorem errorsChangeNothingElse : Obligations.ErrorsChangeNothingElse := by
  intro i s t hexec hci hcode
  cases exec_effect i s t hexec with
  | error e => rfl
  | value | drive | ownAddr | status | init | stop => exact absurd rfl hcode
  | configure p master x2 =>
    rw [configureSpi_eq] at hcode
    exact absurd rfl hcode
  | issueSpi k b => exact absurd (by simp [issueSpi]) hci
  | settle => exact absurd rfl hci
  | violation u hu | start u hu | address u hu | send u hu | readAck u hu | readNack u hu =>
    obtain ⟨b, rfl⟩ := hu.exists_bus
    exact absurd (by simp [issueTwi]) hci

/-! Who changes which registers. -/

/-- The prologue leaves the SPI side to the body. -/
theorem prologue_sameSpi {body : State → State} (hbody : ∀ u, SameSpi u (body u)) (valid : BusState → Bool) (s : State) :
    SameSpi s (prologue valid body s) := by
  have check (b : BusState) : SameSpi s (checkSequence valid body { s with bus := b }) := by
    obtain ⟨-, h⟩ | ⟨-, h⟩ := checkSequence_cases valid body { s with bus := b } <;> rw [h]
    · exact hbody { s with bus := b }
    · simp [SameSpi]
  obtain ⟨-, -, h⟩ | ⟨-, -, -, h⟩ | ⟨-, h⟩ := prologue_cases valid body s <;> rw [h]
  · simp [SameSpi]
  · exact check .idle
  · exact check s.bus

/-- A write of `TWCR` and the hold leave the SPI side. -/
theorem issueTwi_sameSpi (k : TwiWait) (control : Byte) (s : State) : SameSpi s (issueTwi k control s) := by
  simp [SameSpi, issueTwi]

/-- A write of `TWDR` before them does too. -/
theorem issueTwi_writeTwdr_sameSpi (k : TwiWait) (control v : Byte) (s : State) :
    SameSpi s (issueTwi k control (writeTwdr v s)) := by
  simp [SameSpi, issueTwi]

/-- Driving a line leaves the TWI side. -/
theorem driveLine_sameTwi (l : Nat) (level : CsLevel) (s : State) : SameTwi s (driveLine l level s) := by
  unfold driveLine
  split <;> simp [SameTwi]

/-- Issuing a transfer leaves the TWI side. -/
theorem issueSpi_sameTwi (k : SpiWait) (b : Byte) (s : State) : SameTwi s (issueSpi k b s) := by
  simp [SameTwi, issueSpi]

/-- An SPI command leaves the TWI registers and the bus state (40 to 42). -/
theorem exec_sameTwi {i : Instr} {s t : State} (hspi : isSpi i = true) (h : exec i s = .next t) : SameTwi s t := by
  cases i with
  | spiValidate d x2 =>
    cases h
    split <;> simp [SameTwi]
  | spiLookup c m =>
    cases h
    simp [SameTwi]
  | spiConfigure d m ma x2 lsb ie pr =>
    cases h
    split
    · simp [SameTwi]
    · simp [SameTwi, configureSpi_eq]
  | spiSelect l =>
    cases h
    exact driveLine_sameTwi l .low s
  | spiDeselect l =>
    cases h
    exact driveLine_sameTwi l .high s
  | spiTransfer b =>
    cases h
    exact issueSpi_sameTwi .transfer b s
  | spiSend b =>
    cases h
    exact issueSpi_sameTwi .send b s
  | i2cInit | i2cOwnAddr | i2cStart | i2cAddress | i2cSend | i2cReadAck | i2cReadNack | i2cStop | i2cStatus => cases hspi

/-- An I2C command leaves the SPI registers, the lines and the events (43, 44). -/
theorem exec_sameSpi {i : Instr} {s t : State} (hi2c : isSpi i = false) (h : exec i s = .next t) : SameSpi s t := by
  cases i with
  | spiValidate | spiLookup | spiConfigure | spiSelect | spiDeselect | spiTransfer | spiSend => cases hi2c
  | i2cInit hz =>
    cases h
    split
    · simp [SameSpi]
    · exact prologue_sameSpi (fun u => by simp [SameSpi, initTwi_eq]) _ s
  | i2cOwnAddr a =>
    cases h
    simp [SameSpi]
  | i2cStart =>
    cases h
    exact prologue_sameSpi (issueTwi_sameSpi _ _) _ s
  | i2cAddress a d =>
    cases h
    split
    · split
      · simp [SameSpi]
      · exact prologue_sameSpi (issueTwi_writeTwdr_sameSpi _ _ _) _ s
    · simp [SameSpi]
  | i2cSend b =>
    cases h
    exact prologue_sameSpi (issueTwi_writeTwdr_sameSpi _ _ _) _ s
  | i2cReadAck | i2cReadNack =>
    cases h
    exact prologue_sameSpi (issueTwi_sameSpi _ _) _ s
  | i2cStop =>
    cases h
    exact prologue_sameSpi (fun u => by simp [SameSpi]) _ s
  | i2cStatus =>
    cases h
    simp [SameSpi]

/-- Settles O49: one frame for each side. -/
theorem commandsKeepToTheirPeripheral : Obligations.CommandsKeepToTheirPeripheral := by
  intro i s t h
  exact ⟨fun hspi => exec_sameTwi hspi h, fun hi2c => exec_sameSpi hi2c h⟩

/-- Using up a turn changes no register. -/
theorem sameBlock_turnTaken (s t : State) : SameBlock s.turnTaken t ↔ SameBlock s t := by
  simp only [SameBlock, turnTaken_phase, turnTaken_bus, turnTaken_fault, turnTaken_faultCmd, turnTaken_resultCode,
    turnTaken_resultValue, turnTaken_ci, turnTaken_cs, turnTaken_events]

/-- The other agents' turns change no register of the block but `CMD` (20 R49 to R52). -/
theorem sameBlock_of_move {s t : State} {turn : Turn} (h : Move s turn t) (hblock : turn ≠ .block)
    (hreset : turn ≠ .reset) : SameBlock s t := by
  cases h with
  | host | spiCompletes | twiCompletes | stopSettles => simp [SameBlock]
  | reset => exact absurd rfl hreset
  | noStep | finishSpi | finishTwi | illegal | command => exact absurd rfl hblock

/-- Settles O46: the turn is another agent's. -/
theorem onlyTheBlockMovesItsRegisters : Obligations.OnlyTheBlockMovesItsRegisters := by
  intro s t hblock hreset hstep
  exact (sameBlock_turnTaken s t).mp (sameBlock_of_move (move_of_step hstep) hblock hreset)

/-- The host writes no command outside `Ready` (20 R52). -/
theorem hostStep_of_not_ready {s : State} (h : s.phase ≠ .ready) (w : Word) : hostStep w s = s := if_neg h

/-- A faulted block may not decode (60 R121). -/
theorem not_mayDecode_of_faulted {s : State} (h : s.phase = .faulted) : ¬ MayDecode s := by simp [MayDecode, h]

/-- A faulted block keeps its registers in every move but reset (60 R121). -/
theorem sameBlock_of_faulted {s t : State} {turn : Turn} (h : Move s turn t) (hphase : s.phase = .faulted)
    (hreset : turn ≠ .reset) : SameBlock s t ∧ t.cmd = s.cmd := by
  cases h with
  | host w =>
    rw [hostStep_of_not_ready (by simp [hphase])]
    simp [SameBlock]
  | spiCompletes | twiCompletes | stopSettles => simp [SameBlock]
  | reset => exact absurd rfl hreset
  | noStep => simp [SameBlock]
  | finishSpi k hwait | finishTwi k hwait => cases hphase.symm.trans hwait
  | illegal w hm => exact absurd hm (not_mayDecode_of_faulted hphase)
  | command w t hm => exact absurd hm (not_mayDecode_of_faulted hphase)

/-- Settles O50: a faulted block has no move of its own, and the host cannot write `CMD`. -/
theorem faultIsStickyUntilReset : Obligations.FaultIsStickyUntilReset := by
  intro s t hphase hreset hstep
  have hsame := sameBlock_of_faulted (move_of_step hstep) ((turnTaken_phase s).trans hphase) hreset
  rwa [sameBlock_turnTaken, turnTaken_cmd] at hsame

/-- A transfer held with the SPI disabled, nothing pending and `SPIF` = 0 (42 R93). -/
def HeldDisabled (k : SpiWait) (s : State) : Prop :=
  s.phase = .waitSpi k ∧ s.spcr[6] = false ∧ s.spiPending = false ∧ s.spsr[7] = false

/-- Such a transfer is held in the same way after every move but reset: the SPI peripheral's step is not enabled, and the
block's only move needs `SPIF` (42 R93). -/
theorem heldDisabled_of_move {k : SpiWait} {s t : State} {turn : Turn} (h : Move s turn t) (hs : HeldDisabled k s)
    (hreset : turn ≠ .reset) : HeldDisabled k t ∧ t.ci = s.ci ∧ t.cmd = s.cmd := by
  have ⟨hphase, hspe, hpending, hspif⟩ := hs
  have hnodecode : ¬ MayDecode s := by simp [MayDecode, hphase]
  cases h with
  | host w =>
    rw [hostStep_of_not_ready (by simp [hphase])]
    exact ⟨hs, rfl, rfl⟩
  | spiCompletes b =>
    rw [spiCompletionStep_eq, if_neg (by simp [hpending, hspe])]
    exact ⟨hs, rfl, rfl⟩
  | twiCompletes | stopSettles => simpa [HeldDisabled] using hs
  | reset => exact absurd rfl hreset
  | noStep => exact ⟨hs, rfl, rfl⟩
  | finishSpi k' _ hset => exact absurd hset (by simp [State.spif, hspif])
  | finishTwi k' hwait => cases hphase.symm.trans hwait
  | illegal w hm => exact absurd hm hnodecode
  | command w t hm => exact absurd hm hnodecode

/-- Settles O19: the held state is kept. -/
theorem transferWithSpiDisabledHangs : Obligations.TransferWithSpiDisabledHangs := by
  intro k s t hphase hspe hpending hspif hreset hstep
  have hs : HeldDisabled k s.turnTaken := by simpa [HeldDisabled] using ⟨hphase, hspe, hpending, hspif⟩
  obtain ⟨⟨hphase', hspe', hpending', hspif'⟩, hci, hcmd⟩ := heldDisabled_of_move (move_of_step hstep) hs hreset
  exact ⟨hphase', hspe', hpending', hspif', hci.trans (turnTaken_ci s), hcmd.trans (turnTaken_cmd s)⟩

end Sys2Proof.Machine

/-! PROOFS. The invariants of the machine, each kept by every step (spec 10 section 1 and 2; 20 R41; 43 R97 to R99; 60
R120, R126): what the invariant needs of a decoded command is one lemma over `Effect`, and the step follows over `Move`. -/

namespace Sys2Proof.Machine

/-! Parameters, lines and events (00 R7; 10 R14, R20, R21). -/

/-- No decoded command changes the parameters. -/
theorem params_of_effect {s t : State} (h : Effect s t) : t.params = s.params := by
  cases h with
  | error | value | drive | ownAddr | status | settle => rfl
  | configure => rw [configureSpi_eq]
  | issueSpi => rw [issueSpi_eq]
  | violation u hu | init u hu | start u hu | address u hu | send u hu | readAck u hu | readNack u hu | stop u hu =>
    obtain ⟨b, rfl⟩ := hu.exists_bus
    simp [issueTwi, initTwi]

/-- No decoded command adds, drops or moves a line of `CS`. -/
theorem lines_of_effect {s t : State} (h : Effect s t) : t.cs.map Prod.fst = s.cs.map Prod.fst := by
  cases h with
  | error | value | ownAddr | status | settle => rfl
  | drive l level => exact csDriven_lines s.cs l level
  | configure => rw [configureSpi_eq]
  | issueSpi => rw [issueSpi_eq]
  | violation u hu | init u hu | start u hu | address u hu | send u hu | readAck u hu | readNack u hu | stop u hu =>
    obtain ⟨b, rfl⟩ := hu.exists_bus
    simp [issueTwi, initTwi]

/-- Only an accepted SPI.CONFIGURE emits an event, and one at most (10 R21; 41 R85). -/
theorem events_of_effect {s t : State} (h : Effect s t) :
    t.events = s.events ∨ t.events = s.events ++ [.spiMasterPinDir] := by
  cases h with
  | configure p master x2 =>
    rw [configureSpi_eq]
    cases master with
    | true => exact .inr rfl
    | false => exact .inl rfl
  | error | value | drive | ownAddr | status | settle => exact .inl rfl
  | issueSpi => exact .inl (by rw [issueSpi_eq])
  | violation u hu | init u hu | start u hu | address u hu | send u hu | readAck u hu | readNack u hu | stop u hu =>
    obtain ⟨b, rfl⟩ := hu.exists_bus
    exact .inl (by simp [issueTwi, initTwi])

theorem params_of_move {s t : State} {turn : Turn} (h : Move s turn t) : t.params = s.params := by
  cases h with
  | host | spiCompletes | twiCompletes | stopSettles | reset | noStep | illegal => simp
  | finishSpi k =>
    obtain ⟨v, draws, heq⟩ := finishSpi_frame k s
    rw [heq, returnOk_params]
  | finishTwi => rw [finishTwi_eq_returnOk, returnOk_params]
  | command w t hm hcmd heffect => exact params_of_effect heffect

theorem csRecord_of_move {s t : State} {turn : Turn} (h : Move s turn t) (hs : CsRecord s) : CsRecord t := by
  cases h with
  | host | spiCompletes | twiCompletes | stopSettles | noStep | illegal => simpa [CsRecord] using hs
  | reset => exact afterReset_csRecord s.params s.turns s.draws
  | finishSpi k =>
    obtain ⟨v, draws, heq⟩ := finishSpi_frame k s
    rw [heq]
    exact hs
  | finishTwi =>
    rw [finishTwi_eq_returnOk]
    exact hs
  | command w t hm hcmd heffect =>
    rw [CsRecord, params_of_effect heffect, ← hs]
    exact lines_of_effect heffect

theorem events_of_move {s t : State} {turn : Turn} (h : Move s turn t) (hreset : turn ≠ .reset) :
    t.events = s.events ∨ t.events = s.events ++ [.spiMasterPinDir] := by
  cases h with
  | host | spiCompletes | twiCompletes | stopSettles | noStep | illegal => exact .inl (by simp)
  | reset => exact absurd rfl hreset
  | finishSpi k =>
    obtain ⟨v, draws, heq⟩ := finishSpi_frame k s
    exact .inl (by rw [heq, returnOk_events])
  | finishTwi => exact .inl (by rw [finishTwi_eq_returnOk, returnOk_events])
  | command w t hm hcmd heffect => exact events_of_effect heffect

/-- Settles O58: the three parts, each over the moves. -/
theorem stepKeepsParametersLinesAndEvents : Obligations.StepKeepsParametersLinesAndEvents := by
  intro s t hstep
  have hmove := move_of_step hstep
  refine ⟨(params_of_move hmove).trans (turnTaken_params s), fun hs => csRecord_of_move hmove ?_, fun hreset => ?_⟩
  · simpa [CsRecord] using hs
  · simpa using events_of_move hmove hreset

/-! The reserved bits (10 R24, R26, R27): only reset writes one. -/

/-- The bits of `SPSR` that read as 0 (10 R24). -/
def spsrReserved (v : Byte) : Byte := v &&& 0x3E

/-- The bit of `TWCR` that reads as 0 (10 R26). -/
def twcrReserved (v : Byte) : Byte := v &&& 0x02

/-- The bit of `TWSR` that reads as 0 (10 R27). -/
def twsrReserved (v : Byte) : Byte := v &&& 0x04

theorem reservedBitsClear_iff (s : State) :
    ReservedBitsClear s ↔ spsrReserved s.spsr = 0 ∧ twcrReserved s.twcr = 0 ∧ twsrReserved s.twsr = 0 := Iff.rfl

@[simp] theorem spsrReserved_collided (v : Byte) : spsrReserved (spsrCollided v) = spsrReserved v := by
  simp [spsrReserved, spsrCollided_eq, BitVec.and_or_distrib_right]

@[simp] theorem spsrReserved_completed (v : Byte) : spsrReserved (spsrCompleted v) = spsrReserved v := by
  simp [spsrReserved, spsrCompleted_eq, BitVec.and_or_distrib_right]

@[simp] theorem spsrReserved_dataRead (v : Byte) : spsrReserved (spsrDataRead v) = spsrReserved v := by
  simp [spsrReserved, spsrDataRead_eq, BitVec.and_assoc]

@[simp] theorem spsrReserved_written (old v : Byte) : spsrReserved (spsrWritten old v) = spsrReserved old := by
  simp [spsrReserved, spsrWritten_eq, BitVec.and_or_distrib_right, BitVec.and_assoc]

@[simp] theorem twcrReserved_written (old v : Byte) : twcrReserved (twcrWritten old v) = twcrReserved old := by
  unfold twcrReserved twcrWritten
  split <;> simp [BitVec.and_or_distrib_right, BitVec.and_assoc]

@[simp] theorem twcrReserved_dataWritten (v : Byte) : twcrReserved (twcrDataWritten v) = twcrReserved v := by
  obtain hset | hclear := Bool.eq_false_or_eq_true v[7]
  · simp [twcrReserved, twcrDataWritten_of_set v hset, BitVec.and_assoc]
  · simp [twcrReserved, twcrDataWritten_of_clear v hclear, BitVec.and_or_distrib_right]

@[simp] theorem twcrReserved_completed (v : Byte) : twcrReserved (twcrCompleted v) = twcrReserved v := by
  simp [twcrReserved, twcrCompleted_eq, BitVec.and_or_distrib_right]

@[simp] theorem twcrReserved_stopSettled (v : Byte) : twcrReserved (twcrStopSettled v) = twcrReserved v := by
  simp [twcrReserved, twcrStopSettled_eq, BitVec.and_assoc]

@[simp] theorem twsrReserved_written (old v : Byte) : twsrReserved (twsrWritten old v) = twsrReserved old := by
  simp [twsrReserved, twsrWritten, BitVec.and_or_distrib_right, BitVec.and_assoc]

@[simp] theorem twsrReserved_status (old : Byte) (st : BitVec 5) :
    twsrReserved (twsrStatus old st) = twsrReserved old := by
  have hcode : ∀ st : BitVec 5, BitVec.ofNat 8 (8 * st.toNat) &&& 4#8 = 0#8 := by decide
  simp [twsrReserved, twsrStatus_eq, BitVec.and_or_distrib_right, BitVec.and_assoc, hcode]

/-- The reserved bits of the three registers are as they were. -/
def SameReserved (s t : State) : Prop :=
  spsrReserved t.spsr = spsrReserved s.spsr ∧ twcrReserved t.twcr = twcrReserved s.twcr ∧
  twsrReserved t.twsr = twsrReserved s.twsr

/-- A write of `SPDR` sets `WCOL` at most (20 R45). -/
@[simp] theorem spsrReserved_writeSpdr (b : Byte) (s : State) :
    spsrReserved (writeSpdr b s).spsr = spsrReserved s.spsr := by
  obtain ⟨-, h⟩ | ⟨-, -, h⟩ | ⟨-, -, h⟩ := writeSpdr_cases b s <;> simp [h]

/-- No decoded command writes a reserved bit. -/
theorem sameReserved_of_effect {s t : State} (h : Effect s t) : SameReserved s t := by
  cases h with
  | error | value | drive | ownAddr | status | settle => simp [SameReserved]
  | configure p master x2 => cases master <;> simp [SameReserved, configureSpi]
  | issueSpi => simp [SameReserved, issueSpi]
  | violation u hu | init u hu | start u hu | address u hu | send u hu | readAck u hu | readNack u hu | stop u hu =>
    obtain ⟨b, rfl⟩ := hu.exists_bus
    simp [SameReserved, issueTwi, initTwi]

/-- No move but reset writes a reserved bit. -/
theorem sameReserved_of_move {s t : State} {turn : Turn} (h : Move s turn t) (hreset : turn ≠ .reset) :
    SameReserved s t := by
  cases h with
  | host | noStep | illegal => simp [SameReserved]
  | spiCompletes => unfold spiCompletionStep; split <;> simp [SameReserved]
  | twiCompletes => unfold twiCompletionStep; split <;> simp [SameReserved]
  | stopSettles => unfold stopSettleStep; split <;> simp [SameReserved]
  | reset => exact absurd rfl hreset
  | finishSpi k => cases k <;> simp [SameReserved, finishSpi]
  | finishTwi => rw [finishTwi_eq_returnOk]; simp [SameReserved]
  | command w t hm hcmd heffect => exact sameReserved_of_effect heffect

/-- Settles O54: reset clears the reserved bits, and every other step keeps them. -/
theorem stepKeepsReservedBitsClear : Obligations.StepKeepsReservedBitsClear := by
  intro s t hs hstep
  have hmove := move_of_step hstep
  by_cases hreset : s.nextTurn = .reset
  · rw [hreset] at hmove
    cases hmove
    exact afterReset_reservedBitsClear s.turnTaken.params s.turnTaken.turns s.turnTaken.draws
  · obtain ⟨hspsr, htwcr, htwsr⟩ := sameReserved_of_move hmove hreset
    rw [reservedBitsClear_iff, hspsr, htwcr, htwsr, turnTaken_spsr, turnTaken_twcr, turnTaken_twsr]
    exact hs

/-! The command record (10 R15, R17; 60 R120). -/

/-- A state without a fault has a consistent record if its wait phases have a command. -/
theorem commandRecord_of_no_fault {s : State} (hfault : s.fault = none) (hphase : s.phase ≠ .faulted)
    (hwait : s.phase.waiting = true → s.cmd.isSome = true) : CommandRecord s :=
  ⟨hwait, by simp [hfault, hphase], fun h => absurd h hphase⟩

/-- The phases with no wait need no command. -/
theorem commandRecord_of_ready {s : State} (hfault : s.fault = none) (hphase : s.phase = .ready) : CommandRecord s :=
  commandRecord_of_no_fault hfault (by simp [hphase]) (by simp [hphase, Phase.waiting, Phase.waitsSpi, Phase.waitsTwi])

/-- Fault entry records the command in progress (60 R120). -/
theorem commandRecord_raiseFault {s : State} {w : Word} (hcmd : s.cmd = some w) (c : FaultCause) :
    CommandRecord (raiseFault c s) := by
  simp [CommandRecord, hcmd, Phase.waiting, Phase.waitsSpi, Phase.waitsTwi]

/-- The record says nothing of a fault outside the phase `Faulted`. -/
theorem CommandRecord.fault_eq_none {s : State} (h : CommandRecord s) (hphase : s.phase ≠ .faulted) : s.fault = none := by
  obtain ⟨-, hfaulted, -⟩ := h
  rwa [ne_eq, hfaulted, Bool.not_eq_true, Option.isSome_eq_false_iff, Option.isNone_iff_eq_none] at hphase

/-- A decoded command completes, holds with its word in `CMD`, or enters a fault with that word. -/
theorem commandRecord_of_effect {s t : State} {w : Word} (h : Effect s t) (hfault : s.fault = none)
    (hcmd : s.cmd = some w) : CommandRecord t := by
  cases h with
  | error | value | drive | ownAddr | status => exact commandRecord_of_ready hfault rfl
  | configure =>
    rw [configureSpi_eq]
    exact commandRecord_of_ready hfault rfl
  | issueSpi => exact commandRecord_of_no_fault (by simp [issueSpi, hfault]) nofun (by simp [issueSpi, hcmd])
  | settle => exact commandRecord_of_no_fault hfault nofun fun _ => by simp [hcmd]
  | violation u hu =>
    obtain ⟨b, rfl⟩ := hu.exists_bus
    exact commandRecord_raiseFault hcmd .sequenceViolation
  | init u hu | stop u hu =>
    obtain ⟨b, rfl⟩ := hu.exists_bus
    exact commandRecord_of_ready hfault rfl
  | start u hu | address u hu | send u hu | readAck u hu | readNack u hu =>
    obtain ⟨b, rfl⟩ := hu.exists_bus
    exact commandRecord_of_no_fault (by simp [issueTwi, hfault]) nofun (by simp [issueTwi, hcmd])

/-- A block that may decode is not faulted. -/
theorem MayDecode.not_faulted {s : State} (h : MayDecode s) : s.phase ≠ .faulted :=
  fun hphase => not_mayDecode_of_faulted hphase h

theorem commandRecord_of_move {s t : State} {turn : Turn} (h : Move s turn t) (hs : CommandRecord s) :
    CommandRecord t := by
  cases h with
  | host w =>
    by_cases hready : s.phase = .ready
    · have hfault := hs.fault_eq_none (by simp [hready])
      exact commandRecord_of_ready (by simp [hfault]) (by simp [hready])
    · rwa [hostStep_of_not_ready hready]
  | spiCompletes | twiCompletes | stopSettles => simpa [CommandRecord] using hs
  | reset => exact afterReset_commandRecord s.params s.turns s.draws
  | noStep => exact hs
  | finishSpi k hphase =>
    obtain ⟨v, draws, heq⟩ := finishSpi_frame k s
    rw [heq]
    exact commandRecord_of_ready (hs.fault_eq_none (by simp [hphase])) rfl
  | finishTwi k hphase =>
    rw [finishTwi_eq_returnOk]
    exact commandRecord_of_ready (hs.fault_eq_none (by simp [hphase])) rfl
  | illegal w hm hcmd => exact commandRecord_raiseFault hcmd .illegalCommand
  | command w t hm hcmd heffect => exact commandRecord_of_effect heffect (hs.fault_eq_none hm.not_faulted) hcmd

/-- Settles O55: every move keeps the record. -/
theorem stepKeepsCommandRecord : Obligations.StepKeepsCommandRecord := by
  intro s t hs hstep
  exact commandRecord_of_move (move_of_step hstep) (by simpa [CommandRecord] using hs)

/-! The TWI handshake (43 R97, R99). -/

/-- With no action pending and no bus command waiting, only `TWINT` in an open transaction and the settling are left. -/
theorem twiHandshake_of_quiet {s : State} (hpending : s.twiPending = .none) (hwaits : s.phase.waitsTwi = false)
    (hopen : s.bus.inTransaction = true → s.phase = .ready ∨ s.phase.waitsSpi = true → s.twint = true)
    (hsettle : s.phase = .waitSettle → s.bus = .stopPending) : TwiHandshake s :=
  ⟨hopen, fun h => absurd hpending h, fun h => absurd h (by simp [hwaits]), hsettle⟩

/-- An issued bus command has its action pending, with `TWINT` = 0 and no stop asked for. -/
theorem twiHandshake_of_issued {s : State} {k : TwiWait} (hphase : s.phase = .waitTwi k) (hpending : s.twiPending ≠ .none)
    (htwint : s.twint = false) (htwsto : s.twsto = false) : TwiHandshake s := by
  simp [TwiHandshake, hphase, hpending, htwint, htwsto, Phase.waitsTwi, Phase.waitsSpi]

/-- A write of `TWCR` by an issue step triggers an action and clears `TWINT` (43 R98). -/
theorem twiHandshake_issueTwi {control : Byte} (h : control[7] = true ∧ control[2] = true ∧ control[4] = false)
    (k : TwiWait) (s : State) : TwiHandshake (issueTwi k control s) := by
  obtain ⟨htrigger, hen, hstop⟩ := h
  refine twiHandshake_of_issued (k := k) rfl ?pending ?twint ?twsto
  case pending =>
    simp only [issueTwi, memWrite_twcr, enterPhase_twiPending, writeTwcr_twiPending, twiTriggered_eq, htrigger, hen, hstop]
    cases control[5] <;> simp
  case twint => simp [issueTwi, State.twint, htrigger]
  case twsto => simp [issueTwi, State.twsto, hstop]

/-- While the block may decode, no bus action is pending. -/
theorem TwiHandshake.twiPending_eq_none {s : State} (h : TwiHandshake s) (hwaits : s.phase.waitsTwi = false) :
    s.twiPending = .none := by
  obtain ⟨-, hpending, -, -⟩ := h
  by_contra hne
  simp [hwaits] at hpending
  exact hne hpending

/-- While the block may decode, an open transaction has `TWINT` = 1 (43 R99). -/
theorem TwiHandshake.twint_of_mayDecode {s : State} (h : TwiHandshake s) (hm : MayDecode s)
    (hopen : s.bus.inTransaction = true) : s.twint = true := by
  obtain ⟨htwint, -, -, hsettle⟩ := h
  obtain hready | ⟨hwait, -⟩ := hm
  · exact htwint hopen (.inl hready)
  · rw [hsettle hwait] at hopen
    cases hopen

theorem MayDecode.waitsTwi_eq_false {s : State} (h : MayDecode s) : s.phase.waitsTwi = false := by
  obtain hready | ⟨hwait, -⟩ := h
  · simp [hready, Phase.waitsTwi]
  · simp [hwait, Phase.waitsTwi]

/-- A decoded command leaves the bus as it was and completes or holds for the SPI, closes it, or issues an action. -/
theorem twiHandshake_of_effect {s t : State} (h : Effect s t) (hm : MayDecode s) (hs : TwiHandshake s) :
    TwiHandshake t := by
  have hpending := hs.twiPending_eq_none hm.waitsTwi_eq_false
  have hopen := hs.twint_of_mayDecode hm
  cases h with
  | error | value | drive | ownAddr | status => exact twiHandshake_of_quiet hpending rfl (fun h _ => hopen h) nofun
  | configure =>
    rw [configureSpi_eq]
    exact twiHandshake_of_quiet hpending rfl (fun h _ => hopen h) nofun
  | issueSpi =>
    rw [issueSpi_eq]
    exact twiHandshake_of_quiet hpending rfl (fun h _ => hopen h) nofun
  | settle hb => exact twiHandshake_of_quiet hpending rfl (by simp [hb, BusState.inTransaction]) fun _ => hb
  | violation u hu =>
    obtain ⟨b, rfl⟩ := hu.exists_bus
    exact twiHandshake_of_quiet hpending rfl (by simp [Phase.waitsSpi]) nofun
  | init u hu hidle br =>
    obtain ⟨b, rfl⟩ := hu.exists_bus
    rw [initTwi_eq]
    exact twiHandshake_of_quiet hpending rfl (by simp [show b = .idle from hidle, BusState.inTransaction]) nofun
  | stop u hu =>
    obtain ⟨b, rfl⟩ := hu.exists_bus
    exact twiHandshake_of_quiet (by simp [twiTriggered_eq, hpending]) rfl nofun nofun
  | start | address | send | readAck | readNack => exact twiHandshake_issueTwi (by decide) _ _

/-- With `TWINT` = 1 and no action pending only the settling is left. -/
theorem twiHandshake_of_twint {s : State} (htwint : s.twint = true) (hpending : s.twiPending = .none)
    (hsettle : s.phase = .waitSettle → s.bus = .stopPending) : TwiHandshake s :=
  ⟨fun _ _ => htwint, fun h => absurd hpending h, fun _ => .inr htwint, hsettle⟩

/-- Settling clears `TWSTO` only (20 R51). -/
@[simp] theorem twcrStopSettled_twint (v : Byte) : (twcrStopSettled v)[7] = v[7] := by simp [twcrStopSettled_eq]

theorem twiHandshake_of_move {s t : State} {turn : Turn} (h : Move s turn t) (hs : TwiHandshake s) :
    TwiHandshake t := by
  have ⟨hopen, hissued, hwaits, hsettle⟩ := hs
  cases h with
  | host | spiCompletes => simpa [TwiHandshake, State.twint, State.twsto] using hs
  | twiCompletes st b =>
    unfold twiCompletionStep
    split
    · exact hs
    · exact twiHandshake_of_twint (by simp [State.twint, twcrCompleted_eq]) rfl hsettle
  | stopSettles st =>
    unfold stopSettleStep
    split
    next henabled =>
      obtain ⟨-, hpending⟩ := henabled
      simpa [TwiHandshake, State.twint, hpending] using hs
    next => exact hs
  | reset => exact afterReset_twiHandshake s.params s.turns s.draws
  | noStep => exact hs
  | finishSpi k hphase =>
    obtain ⟨v, draws, heq⟩ := finishSpi_frame k s
    have hpending := hs.twiPending_eq_none (by rw [hphase]; rfl)
    rw [heq]
    exact twiHandshake_of_quiet hpending rfl (fun h _ => hopen h (.inr (by rw [hphase]; rfl))) nofun
  | finishTwi k hphase htwint =>
    have hpending : s.twiPending = .none := by
      by_contra hne
      obtain ⟨hclear, -, -⟩ := hissued hne
      rw [htwint] at hclear
      cases hclear
    rw [finishTwi_eq_returnOk]
    exact twiHandshake_of_twint htwint hpending nofun
  | illegal w hm hcmd =>
    exact twiHandshake_of_quiet (hs.twiPending_eq_none hm.waitsTwi_eq_false) rfl (by simp [Phase.waitsSpi]) nofun
  | command w t hm hcmd heffect => exact twiHandshake_of_effect heffect hm hs

/-- Settles O56: every move keeps the handshake. -/
theorem stepKeepsTwiHandshake : Obligations.StepKeepsTwiHandshake := by
  intro s t hs hstep
  exact twiHandshake_of_move (move_of_step hstep) (by simpa [TwiHandshake, State.twint, State.twsto] using hs)

/-! The SPI handshake (20 R41). -/

@[simp] theorem spsrWritten_spif (old v : Byte) : (spsrWritten old v)[7] = old[7] := by simp [spsrWritten_eq]

@[simp] theorem spsrCollided_spif (v : Byte) : (spsrCollided v)[7] = v[7] := by simp [spsrCollided_eq]

/-- A write of `SPDR` leaves `SPIF` (20 R45). -/
@[simp] theorem writeSpdr_spif (b : Byte) (s : State) : (writeSpdr b s).spsr[7] = s.spsr[7] := by
  obtain ⟨-, h⟩ | ⟨-, -, h⟩ | ⟨-, -, h⟩ := writeSpdr_cases b s <;> simp [h]

/-- No decoded command sets `SPIF` or fills `SPDR_RX`. -/
theorem spif_of_effect {s t : State} (h : Effect s t) : t.spsr[7] = s.spsr[7] ∧ t.spdrRxFilled = s.spdrRxFilled := by
  cases h with
  | error | value | drive | ownAddr | status | settle => simp
  | configure p master x2 => cases master <;> simp [configureSpi]
  | issueSpi => simp [issueSpi]
  | violation u hu | init u hu | start u hu | address u hu | send u hu | readAck u hu | readNack u hu | stop u hu =>
    obtain ⟨b, rfl⟩ := hu.exists_bus
    simp [issueTwi, initTwi]

/-- The flag is set only with the delivery that fills `SPDR_RX`, and every read clears it (20 R41, R49). -/
theorem spiHandshake_of_move {s t : State} {turn : Turn} (h : Move s turn t) (hs : SpiHandshake s) :
    SpiHandshake t := by
  cases h with
  | host | twiCompletes | stopSettles | illegal => simpa [SpiHandshake, State.spif] using hs
  | spiCompletes b =>
    unfold spiCompletionStep
    split
    · exact fun _ => rfl
    · exact hs
  | reset => exact afterReset_spiHandshake s.params s.turns s.draws
  | noStep => exact hs
  | finishSpi k =>
    obtain ⟨v, draws, heq⟩ := finishSpi_frame k s
    simp [SpiHandshake, State.spif, heq]
  | finishTwi =>
    rw [finishTwi_eq_returnOk]
    exact hs
  | command w t hm hcmd heffect =>
    obtain ⟨hspif, hfilled⟩ := spif_of_effect heffect
    rw [SpiHandshake, State.spif, hspif, hfilled]
    exact hs

/-- Settles O57: every move keeps the handshake. -/
theorem stepKeepsSpiHandshake : Obligations.StepKeepsSpiHandshake := by
  intro s t hs hstep
  exact spiHandshake_of_move (move_of_step hstep) (by simpa [SpiHandshake, State.spif] using hs)

/-! The TWI interrupt (43 R98; 60 R126). -/

@[simp] theorem twcrCompleted_twie (v : Byte) : (twcrCompleted v)[0] = v[0] := by simp [twcrCompleted_eq]

@[simp] theorem twcrStopSettled_twie (v : Byte) : (twcrStopSettled v)[0] = v[0] := by simp [twcrStopSettled_eq]

/-- Every `TWCR` value a command writes has `TWIE` = 0 (43 R98). -/
theorem twiInterruptOff_of_effect {s t : State} (h : Effect s t) (hs : TwiInterruptOff s) : TwiInterruptOff t := by
  cases h with
  | error | value | drive | ownAddr | status | settle => exact hs
  | configure =>
    rw [configureSpi_eq]
    exact hs
  | issueSpi =>
    rw [issueSpi_eq]
    exact hs
  | violation u hu =>
    obtain ⟨b, rfl⟩ := hu.exists_bus
    exact hs
  | init | start | address | send | readAck | readNack | stop => simp [TwiInterruptOff, State.twie, issueTwi, initTwi]

theorem twiInterruptOff_of_move {s t : State} {turn : Turn} (h : Move s turn t)
    (hparams : s.params.periphReset.twcr[0] = false) (hs : TwiInterruptOff s) : TwiInterruptOff t := by
  cases h with
  | host | spiCompletes => simpa [TwiInterruptOff, State.twie] using hs
  | twiCompletes =>
    unfold twiCompletionStep
    split <;> simpa [TwiInterruptOff, State.twie] using hs
  | stopSettles =>
    unfold stopSettleStep
    split <;> simpa [TwiInterruptOff, State.twie] using hs
  | reset => exact afterReset_twiInterruptOff hparams s.turns s.draws
  | noStep | illegal => exact hs
  | finishSpi k =>
    obtain ⟨v, draws, heq⟩ := finishSpi_frame k s
    rw [heq]
    exact hs
  | finishTwi =>
    rw [finishTwi_eq_returnOk]
    exact hs
  | command w t hm hcmd heffect => exact twiInterruptOff_of_effect heffect hs

/-- Settles O59: every move keeps `TWIE` = 0, and without it there is no request. -/
theorem stepKeepsTwiInterruptOff : Obligations.StepKeepsTwiInterruptOff := by
  intro s t hparams hs hstep
  have hoff : TwiInterruptOff t :=
    twiInterruptOff_of_move (move_of_step hstep) (by simpa using hparams) (by simpa [TwiInterruptOff, State.twie] using hs)
  exact ⟨hoff, by rw [State.twiRequest, hoff, Bool.false_and]⟩

end Sys2Proof.Machine

/-! PROOFS. Status steers nothing (spec 43 R95; 44 R114): the relation 'differs at most in `TWSR` and `RESULT_VALUE`' is
kept by each shared operation, so by each command, by the block's step and by each agent's step. -/

namespace Sys2Proof.Machine

/-- The two states differ at most in `TWSR` and in `RESULT_VALUE`. -/
def SameButStatus (s t : State) : Prop := ∃ v r : Byte, t = { s with twsr := v, resultValue := r }

/-- The two outcomes are next states that differ at most in the status. -/
inductive NextButStatus : Host.Outcome State Fault Refusal → Host.Outcome State Fault Refusal → Prop where
  | next {s t : State} (h : SameButStatus s t) : NextButStatus (.next s) (.next t)

/-- An operation on states that does not look at the status. -/
def StatusBlind (f : State → State) : Prop := ∀ s t, SameButStatus s t → SameButStatus (f s) (f t)

theorem sameButStatus_ite {c : Prop} [Decidable c] {s s' t t' : State} (h : SameButStatus s s')
    (h' : SameButStatus t t') : SameButStatus (if c then s else t) (if c then s' else t') := by
  split
  · exact h
  · exact h'

/-! What the two states agree on. -/

section
variable {s t : State} (h : SameButStatus s t)
include h

theorem SameButStatus.params : t.params = s.params := by obtain ⟨v, r, rfl⟩ := h; rfl
theorem SameButStatus.cmd : t.cmd = s.cmd := by obtain ⟨v, r, rfl⟩ := h; rfl
theorem SameButStatus.phase : t.phase = s.phase := by obtain ⟨v, r, rfl⟩ := h; rfl
theorem SameButStatus.spif : t.spif = s.spif := by obtain ⟨v, r, rfl⟩ := h; rfl
theorem SameButStatus.spdrRxFilled : t.spdrRxFilled = s.spdrRxFilled := by obtain ⟨v, r, rfl⟩ := h; rfl
theorem SameButStatus.twint : t.twint = s.twint := by obtain ⟨v, r, rfl⟩ := h; rfl
theorem SameButStatus.twsto : t.twsto = s.twsto := by obtain ⟨v, r, rfl⟩ := h; rfl
theorem SameButStatus.nextTurn : t.nextTurn = s.nextTurn := by obtain ⟨v, r, rfl⟩ := h; rfl

end

/-! The shared operations. -/

theorem statusBlind_returnError (e : ErrorCode) : StatusBlind (returnError e) := by
  rintro s _ ⟨v, r, rfl⟩
  exact ⟨v, 0x00, rfl⟩

/-- A success may return anything, even a status. -/
theorem sameButStatus_returnOk {s t : State} (h : SameButStatus s t) (a b : Byte) :
    SameButStatus (returnOk a s) (returnOk b t) := by
  obtain ⟨v, r, rfl⟩ := h
  exact ⟨v, b, rfl⟩

theorem statusBlind_raiseFault (c : FaultCause) : StatusBlind (raiseFault c) := by
  rintro s _ ⟨v, r, rfl⟩
  exact ⟨v, r, rfl⟩

theorem statusBlind_enterPhase (p : Phase) : StatusBlind (enterPhase p) := by
  rintro s _ ⟨v, r, rfl⟩
  exact ⟨v, r, rfl⟩

theorem statusBlind_setBus (b : BusState) : StatusBlind (setBus b) := by
  rintro s _ ⟨v, r, rfl⟩
  exact ⟨v, r, rfl⟩

theorem statusBlind_writeTwcr (control : Byte) : StatusBlind (writeTwcr control) := by
  rintro s _ ⟨v, r, rfl⟩
  exact ⟨v, r, rfl⟩

theorem statusBlind_writeTwdr (b : Byte) : StatusBlind (writeTwdr b) := by
  rintro s _ ⟨v, r, rfl⟩
  exact sameButStatus_ite ⟨v, r, rfl⟩ ⟨v, r, rfl⟩

theorem statusBlind_issueTwi (k : TwiWait) (control : Byte) : StatusBlind (issueTwi k control) := fun s t h =>
  statusBlind_enterPhase (.waitTwi k) _ _ (statusBlind_writeTwcr control s t h)

theorem statusBlind_issueSpi (k : SpiWait) (b : Byte) : StatusBlind (issueSpi k b) := by
  rintro s _ ⟨v, r, rfl⟩
  rw [issueSpi_eq, issueSpi_eq]
  exact ⟨v, r, rfl⟩

theorem statusBlind_initTwi (br : Nat) : StatusBlind (initTwi br) := by
  rintro s _ ⟨v, r, rfl⟩
  rw [initTwi_eq, initTwi_eq]
  exact ⟨v &&& 0xFC, BitVec.ofNat 8 br, rfl⟩

theorem statusBlind_configureSpi (p : Byte) (master x2 : Bool) : StatusBlind (configureSpi p master x2) := by
  rintro s _ ⟨v, r, rfl⟩
  rw [configureSpi_eq, configureSpi_eq]
  exact ⟨v, p, rfl⟩

theorem statusBlind_driveLine (l : Nat) (level : CsLevel) : StatusBlind (driveLine l level) := by
  rintro s _ ⟨v, r, rfl⟩
  exact sameButStatus_ite ⟨v, 0x00, rfl⟩ ⟨v, 0x00, rfl⟩

theorem statusBlind_checkSequence (valid : BusState → Bool) {body : State → State} (hbody : StatusBlind body) :
    StatusBlind (checkSequence valid body) := by
  rintro s _ ⟨v, r, rfl⟩
  exact sameButStatus_ite (hbody s _ ⟨v, r, rfl⟩) (statusBlind_raiseFault .sequenceViolation s _ ⟨v, r, rfl⟩)

/-- The prologue looks at `BUS`, `PHASE` and `TWSTO` only (43 R96, R97). -/
theorem statusBlind_prologue (valid : BusState → Bool) {body : State → State} (hbody : StatusBlind body) :
    StatusBlind (prologue valid body) := by
  have hcheck := statusBlind_checkSequence valid hbody
  rintro s _ ⟨v, r, rfl⟩
  exact sameButStatus_ite
    (sameButStatus_ite (hcheck _ _ (statusBlind_setBus .idle s _ ⟨v, r, rfl⟩))
      (statusBlind_enterPhase .waitSettle s _ ⟨v, r, rfl⟩))
    (hcheck s _ ⟨v, r, rfl⟩)

/-! The completion steps. -/

theorem statusBlind_finishSpi (k : SpiWait) : StatusBlind (finishSpi k) := by
  intro s t h
  obtain hfilled | hempty := Bool.eq_false_or_eq_true s.spdrRxFilled
  · rw [finishSpi_of_filled k s hfilled, finishSpi_of_filled k t (h.spdrRxFilled.trans hfilled)]
    obtain ⟨v, r, rfl⟩ := h
    exact sameButStatus_returnOk ⟨v, r, rfl⟩ _ _
  · rw [finishSpi_of_empty k s hempty, finishSpi_of_empty k t (h.spdrRxFilled.trans hempty)]
    obtain ⟨v, r, rfl⟩ := h
    exact sameButStatus_returnOk ⟨v, r, rfl⟩ _ _

theorem statusBlind_finishTwi (k : TwiWait) : StatusBlind (finishTwi k) := by
  rintro s _ ⟨v, r, rfl⟩
  rw [finishTwi_eq_returnOk, finishTwi_eq_returnOk]
  exact sameButStatus_returnOk ⟨v, r, rfl⟩ _ _

/-! The agents. -/

/-- No command looks at the status; I2C.STATUS returns it. -/
theorem exec_nextButStatus (i : Instr) {s t : State} (h : SameButStatus s t) :
    NextButStatus (exec i s) (exec i t) := by
  cases i with
  | spiValidate d x2 => exact .next (sameButStatus_ite (sameButStatus_returnOk h _ _) (statusBlind_returnError _ s t h))
  | spiLookup c m => exact .next (sameButStatus_returnOk h _ _)
  | spiConfigure d m ma x2 lsb ie pr =>
    refine .next ?_
    split
    · exact statusBlind_returnError _ s t h
    · exact statusBlind_configureSpi _ _ _ s t h
  | spiSelect l => exact .next (statusBlind_driveLine l .low s t h)
  | spiDeselect l => exact .next (statusBlind_driveLine l .high s t h)
  | spiTransfer b => exact .next (statusBlind_issueSpi .transfer b s t h)
  | spiSend b => exact .next (statusBlind_issueSpi .send b s t h)
  | i2cInit hz =>
    rw [exec_i2cInit, exec_i2cInit, execI2cInit, execI2cInit, h.params]
    refine .next ?_
    split
    · exact statusBlind_returnError _ s t h
    · exact statusBlind_prologue _ (statusBlind_initTwi _) s t h
  | i2cOwnAddr a =>
    obtain ⟨v, r, rfl⟩ := h
    exact .next ⟨v, 0x00, rfl⟩
  | i2cStart => exact .next (statusBlind_prologue _ (statusBlind_issueTwi _ _) s t h)
  | i2cAddress a d =>
    refine .next (sameButStatus_ite ?_ (statusBlind_returnError _ s t h))
    split
    · exact statusBlind_returnError _ s t h
    · exact statusBlind_prologue _ (fun u u' hu => statusBlind_issueTwi _ _ _ _ (statusBlind_writeTwdr _ u u' hu)) s t h
  | i2cSend b =>
    exact .next
      (statusBlind_prologue _ (fun u u' hu => statusBlind_issueTwi _ _ _ _ (statusBlind_writeTwdr b u u' hu)) s t h)
  | i2cReadAck | i2cReadNack => exact .next (statusBlind_prologue _ (statusBlind_issueTwi _ _) s t h)
  | i2cStop =>
    refine .next (statusBlind_prologue _ (fun u u' hu => sameButStatus_returnOk ?_ _ _) s t h)
    exact statusBlind_setBus _ _ _ (statusBlind_writeTwcr _ u u' hu)
  | i2cStatus => exact .next (sameButStatus_returnOk h _ _)

/-- The word in `CMD` alone says what the block runs (30 R62). -/
theorem runCommand_nextButStatus {s t : State} (h : SameButStatus s t) : NextButStatus (runCommand s) (runCommand t) := by
  cases hc : s.cmd with
  | none =>
    rw [runCommand_none s hc, runCommand_none t (h.cmd.trans hc)]
    exact .next h
  | some w =>
    cases hd : decode w with
    | command i =>
      rw [runCommand_command s w i hc hd, runCommand_command t w i (h.cmd.trans hc) hd]
      exact exec_nextButStatus i h
    | illegal e =>
      rw [runCommand_illegal s w e hc hd, runCommand_illegal t w e (h.cmd.trans hc) hd]
      exact .next (statusBlind_raiseFault .illegalCommand s t h)

/-- The block's step looks at `PHASE` and the hold conditions only (20 R53, R54). -/
theorem blockStep_nextButStatus {s t : State} (h : SameButStatus s t) : NextButStatus (blockStep s) (blockStep t) := by
  have hrun := runCommand_nextButStatus h
  cases hp : s.phase with
  | ready =>
    rw [blockStep_ready s hp, blockStep_ready t (h.phase.trans hp)]
    exact hrun
  | waitSpi k =>
    rw [blockStep_waitSpi s k hp, blockStep_waitSpi t k (h.phase.trans hp), h.spif]
    exact .next (sameButStatus_ite (statusBlind_finishSpi k s t h) h)
  | waitTwi k =>
    rw [blockStep_waitTwi s k hp, blockStep_waitTwi t k (h.phase.trans hp), h.twint]
    exact .next (sameButStatus_ite (statusBlind_finishTwi k s t h) h)
  | waitSettle =>
    rw [blockStep_waitSettle s hp, blockStep_waitSettle t (h.phase.trans hp), h.twsto]
    split
    · exact .next h
    · exact hrun
  | faulted =>
    rw [blockStep_faulted s hp, blockStep_faulted t (h.phase.trans hp)]
    exact .next h

/-- No agent's step looks at the status. -/
theorem agentStep_nextButStatus (turn : Turn) {s t : State} (h : SameButStatus s t) :
    NextButStatus (agentStep turn s) (agentStep turn t) := by
  cases turn with
  | block => exact blockStep_nextButStatus h
  | host w =>
    obtain ⟨v, r, rfl⟩ := h
    exact .next (sameButStatus_ite ⟨v, r, rfl⟩ ⟨v, r, rfl⟩)
  | spiCompletes b =>
    obtain ⟨v, r, rfl⟩ := h
    exact .next (sameButStatus_ite ⟨v, r, rfl⟩ ⟨v, r, rfl⟩)
  | twiCompletes st b =>
    obtain ⟨v, r, rfl⟩ := h
    exact .next (sameButStatus_ite ⟨v, r, rfl⟩ ⟨twsrStatus v st, r, rfl⟩)
  | stopSettles st =>
    obtain ⟨v, r, rfl⟩ := h
    exact .next (sameButStatus_ite ⟨twsrStatus v st, r, rfl⟩ ⟨v, r, rfl⟩)
  | reset =>
    obtain ⟨v, r, rfl⟩ := h
    exact .next ⟨_, _, rfl⟩

/-- The choice of the environment does not depend on the status, and using it up does not either (log 1). -/
theorem statusBlind_turnTaken : StatusBlind State.turnTaken := by
  rintro s _ ⟨v, r, rfl⟩
  rw [turnTaken_eq, turnTaken_eq]
  exact ⟨v, r, rfl⟩

/-- A step keeps the relation: the same turn is taken by the same agent. -/
theorem step_nextButStatus {s t : State} (h : SameButStatus s t) : NextButStatus (step s) (step t) := by
  rw [step, step, h.nextTurn]
  exact agentStep_nextButStatus s.nextTurn (statusBlind_turnTaken s t h)

/-- Settles O37: the relation kept by a step, with the second state written out. -/
theorem statusSteersNothing : Obligations.StatusSteersNothing := by
  intro s t v r hstep
  have hnext : NextButStatus (step s) (step { s with twsr := v, resultValue := r }) := step_nextButStatus ⟨v, r, rfl⟩
  generalize step { s with twsr := v, resultValue := r } = outcome at hnext ⊢
  rw [hstep] at hnext
  obtain ⟨v', r', rfl⟩ := hnext
  exact ⟨v', r', rfl⟩

end Sys2Proof.Machine
